-- ==== Sys2Proof/Word.lean ====
section
/-! DEFINITION. The word types of the block (00_scope.md R6): every value is an unsigned bit vector, bit 0 least
significant. -/

namespace Sys2Proof

/-- A data-register byte, raw or inverted (30_encoding.md R48), and a control code (20_memory.md R35). -/
abbrev Byte := BitVec 8

/-- The low nibble of a sample (30_encoding.md R49, R50). -/
abbrev Nibble := BitVec 4

/-- The operation word `p ooo` on CMD[3:0] (30_encoding.md R51). -/
abbrev OpWord := BitVec 4

/-- Twelve button flags, Mode in bit 11 down to Up in bit 0 (30_encoding.md R46). -/
abbrev NormalizedState := BitVec 12

/-- The sample buffer S[0..5] (10_state.md R13). -/
abbrev SampleBuffer := Vector Byte 6

end Sys2Proof
end

