-- ==== Sys2Proof/Syntax.lean ====
section
/-! DEFINITION. The operations of spec/opcode_table.json, one constructor a row, and their operand types. -/

namespace Sys2Proof

/-- The two ports (30_encoding.md R44). -/
inductive Port where
  | a
  | b
  deriving DecidableEq, Repr, Inhabited

/-- A strobe level (30_encoding.md R45). -/
inductive Level where
  | low
  | high
  deriving DecidableEq, Repr, Inhabited

/-- What DETECT classifies the attached device as (30_encoding.md R47). -/
inductive DeviceType where
  | legacy2
  | three
  | six
  deriving DecidableEq, Repr, Inhabited

/-- The rows of spec/opcode_table.json (00_scope.md R3 and the reserved word of 30_encoding.md R55). -/
inductive Instr where
  /-- `DETECT p`, host command (42_detect.md R65). -/
  | detect (p : Port)
  /-- `READ3 p`, host command (43_read3.md R68). -/
  | read3 (p : Port)
  /-- `READ6 p`, host command (44_read6.md R71). -/
  | read6 (p : Port)
  /-- `READ p`, host command (45_read.md R77). -/
  | read (p : Port)
  /-- `SETSTROBE p, l`, issued by the sequencer only (41_strobe.md R63). -/
  | setStrobe (p : Port) (l : Level)
  /-- `SAMPLE p`, issued by the sequencer only (40_sampler.md R60). -/
  | sample (p : Port)
  /-- `FORMAT st`, a pure function of its operand (46_format.md R79). -/
  | format (st : NormalizedState)
  /-- The reserved word `p111`, whose port bit is ignored (30_encoding.md R55). -/
  | reserved (p : Port)
  deriving DecidableEq, Repr

end Sys2Proof
end

