-- ==== Sys2Proof/WellFormed.lean ====
section
/-! DEFINITION. The checks on an operation as syntax: which terms are operations at all, and which the host may issue.
Operand ranges need no check, for the operand types admit nothing else (30_encoding.md R54, R55 (f)). -/

namespace Sys2Proof

/-- The term names one of the seven operations; the reserved word names none (00_scope.md R3, 30_encoding.md R55 (a)). -/
def Instr.isOperation : Instr → Bool
  | .detect _ => true
  | .read3 _ => true
  | .read6 _ => true
  | .read _ => true
  | .setStrobe _ _ => true
  | .sample _ => true
  | .format _ => true
  | .reserved _ => false

/-- The host may present the term's word on CMD and have it accepted (30_encoding.md R51, R55 (b); 47_sequencer.md R82). -/
def Instr.isHostCommand : Instr → Bool
  | .detect _ => true
  | .read3 _ => true
  | .read6 _ => true
  | .read _ => true
  | .setStrobe _ _ => false
  | .sample _ => false
  | .format _ => false
  | .reserved _ => false

/-- A well-formed instruction is one of the seven operations of 00_scope.md R3. -/
abbrev Instr.WellFormed (i : Instr) : Prop := i.isOperation = true

/-- A host command of 30_encoding.md R51. -/
abbrev Instr.HostCommand (i : Instr) : Prop := i.isHostCommand = true

end Sys2Proof
end

