-- ==== Sys2Proof/Decode.lean ====
section
/-! DEFINITION. The decoder and the encoder of the operation word and of FORMAT's operand (30_encoding.md R44, R45, R51, R54).
Outside the block an operation is one byte `0000 pooo`, or for FORMAT two bytes that hold its 12-bit operand, the low eight
bits first; that layout is the model's own (DESIGN CHOICE, log 11). -/

namespace Sys2Proof

/-- Why a list of bytes is no operation. -/
inductive DecodeError where
  /-- There is no byte. -/
  | empty
  /-- The byte does not fit the four bits of an operation word (30_encoding.md R56). -/
  | notAnOperationWord
  /-- The two bytes do not fit the twelve bits of FORMAT's operand (30_encoding.md R56). -/
  | notANormalizedState
  /-- No operation is longer than two bytes. -/
  | tooLong
  deriving DecidableEq, Repr

/-- A = 0, B = 1 (30_encoding.md R44). -/
def Port.code : Port → BitVec 1
  | .a => 0b0
  | .b => 0b1

/-- Low = 0, high = 1 (30_encoding.md R45). -/
def Level.code : Level → BitVec 1
  | .low => 0b0
  | .high => 0b1

/-- Legacy2 = 0, Three = 1, Six = 2 (30_encoding.md R47). -/
def DeviceType.code : DeviceType → BitVec 2
  | .legacy2 => 0
  | .three => 1
  | .six => 2

/-- The port a bit names (30_encoding.md R44). -/
def portOfBit (b : Bool) : Port := if b then .b else .a

/-- The level a bit names (30_encoding.md R45). -/
def levelOfBit (b : Bool) : Level := if b then .high else .low

/-- The operation a word `p ooo` names (30_encoding.md R51). -/
def decodeWord (w : OpWord) : Instr :=
  let p := portOfBit (w.getLsbD 3)
  match w.extractLsb' 0 3 with
  | 0b000#3 => .detect p
  | 0b001#3 => .read3 p
  | 0b010#3 => .read6 p
  | 0b011#3 => .read p
  | 0b100#3 => .setStrobe p .low
  | 0b101#3 => .setStrobe p .high
  | 0b110#3 => .sample p
  | _ => .reserved p

/-- The operation a list of bytes holds (log 11 for the layout). -/
def decode : List Byte → Except DecodeError Instr
  | [] => .error .empty
  | [b] => if b.extractLsb' 4 4 = 0 then .ok (decodeWord (b.extractLsb' 0 4)) else .error .notAnOperationWord
  | [lo, hi] =>
    if hi.extractLsb' 4 4 = 0 then .ok (.format (hi.extractLsb' 0 4 ++ lo)) else .error .notANormalizedState
  | _ :: _ :: _ :: _ => .error .tooLong

/-- The operation word of an operation; FORMAT has none (30_encoding.md R51). -/
def encodeWord : Instr → Option OpWord
  | .detect p => some (p.code ++ 0b000#3)
  | .read3 p => some (p.code ++ 0b001#3)
  | .read6 p => some (p.code ++ 0b010#3)
  | .read p => some (p.code ++ 0b011#3)
  | .setStrobe p l => some (p.code ++ 0b10#2 ++ l.code)
  | .sample p => some (p.code ++ 0b110#3)
  | .format _ => none
  | .reserved p => some (p.code ++ 0b111#3)

/-- The bytes of FORMAT's operand, the low eight bits first (log 11). -/
def encodeOperand (st : NormalizedState) : List Byte := [st.extractLsb' 0 8, 0#4 ++ st.extractLsb' 8 4]

/-- The bytes of an operation: its word in the low four bits of one byte, or FORMAT's operand in two (log 11). -/
def encode : Instr → List Byte
  | .format st => encodeOperand st
  | i => ((encodeWord i).map (fun w => (0#4 ++ w : Byte))).toList

/-- The operation whose bits, numbered as spec/opcode_table.json numbers them, are w: a row of at most eight bits is an
operation word, a row of nine to sixteen bits is FORMAT's. -/
def decodeTableWord (nbits w : Nat) : Option Instr :=
  let bytes : List Byte :=
    if nbits ≤ 8 then [BitVec.ofNat 8 w] else [BitVec.ofNat 8 w, BitVec.ofNat 8 (w / 256)]
  if nbits ≤ 16 ∧ w < 2 ^ (8 * bytes.length) then
    match decode bytes with
    | .ok i => some i
    | .error _ => none
  else none

end Sys2Proof
end

