-- ==== Sys2Proof/Config.lean ====
section
/-! DEFINITION. The parameters of 00_scope.md R5, the platform's three registers, the bus events, and the free value: what
the environment answers to a read. The OPEN parameters and the free value are opaque constants without a body. -/

namespace Sys2Proof

/-- The three registers of the I/O space (20_memory.md R28). -/
inductive IoReg where
  | data (p : Port)
  | ctrl
  deriving DecidableEq, Repr

/-- One bus access (00_scope.md R8). -/
inductive BusEvent where
  /-- `R(DATA[p]) = v` (20_memory.md R30). -/
  | read (p : Port) (v : Byte)
  /-- `W(CTRL) = c` (20_memory.md R31). -/
  | write (c : Byte)
  deriving DecidableEq, Repr

/-- The register a bus access reaches (20_memory.md R30, R31). -/
def BusEvent.reg : BusEvent → IoReg
  | .read p _ => .data p
  | .write _ => .ctrl

namespace Config

/-- `STABLE_READS` (00_scope.md R5). -/
def stableReads : Nat := 3

/-- `STABLE_MAX_ITERS` (00_scope.md R5). -/
def stableMaxIters : Nat := 64

/-- Which bytes the four control codes are: OPEN (00_scope.md R5, D1). Every choice of four pairwise different bytes is
some permutation's values at 0, 1, 2, 3 (log 3). -/
opaque codePerm : Equiv.Perm Byte

/-- Where the three registers are: OPEN (00_scope.md R5, D2). Every choice of three different addresses is some
permutation's values at 0, 1, 2 (log 3). -/
opaque addrPerm : Equiv.Perm Nat

/-- The row of the table of four control codes: A-low, A-high, B-low, B-high (20_memory.md R35). -/
def codeIndex : Port → Level → Byte
  | .a, .low => 0
  | .a, .high => 1
  | .b, .low => 2
  | .b, .high => 3

/-- `CODE[p][l]`, the control code that drives port p's strobe line to level l (00_scope.md R5, 30_encoding.md R53). -/
def code (p : Port) (l : Level) : Byte := codePerm (codeIndex p l)

/-- `ADDR_DATA[p]` and `ADDR_CTRL` (00_scope.md R5, 20_memory.md R28). -/
def addr : IoReg → Nat
  | .data .a => addrPerm 0
  | .data .b => addrPerm 1
  | .ctrl => addrPerm 2

/-- FREE VALUE: the byte the environment returns to a read of DATA[p] after the given bus trace (20_memory.md R33, D31: "the
answer of an unconstrained oracle that may see the whole bus trace"; log 2). -/
opaque envByte : List BusEvent → Port → Byte

end Config

end Sys2Proof
end

