-- ==== Sys2Proof/Machine/State.lean ====
section
/-! DEFINITION. The state of the block (10_state.md R10), the inputs its surroundings hold ready, the reasons a step could
stop, and the state after reset (10_state.md R26, 70_reset_and_hazards.md R108). -/

namespace Sys2Proof.Machine

/-- The accepted command, the register OP (10_state.md R15). -/
inductive Op where
  | detect
  | read3
  | read6
  | read
  deriving DecidableEq, Repr

/-- The running schedule, the register PROG (10_state.md R16). -/
inductive Prog where
  | det
  | r3
  | r6
  deriving DecidableEq, Repr

/-- The register PH: the entry's strobe write is still to be made, or its SAMPLE is running (10_state.md R16). -/
inductive Phase where
  | wr
  | rd
  deriving DecidableEq, Repr

/-- What the host does at one step (47_sequencer.md R81, 70_reset_and_hazards.md R108; log 1). -/
inductive HostMove where
  /-- It presents no word. -/
  | wait
  /-- It presents this word at this step, whatever BUSY is. -/
  | present (w : OpWord)
  /-- It waits for BUSY = 0 and then presents this word (47_sequencer.md R83, R85). -/
  | call (w : OpWord)
  /-- It calls the pure formatter on a state (46_format.md R79). -/
  | format (st : NormalizedState)
  /-- It asserts the reset input. -/
  | reset
  deriving DecidableEq, Repr

/-- The block has no fault (60_exceptions.md R94), so there is no reason for one. -/
inductive Fault
  deriving DecidableEq, Repr

/-- Why a step is refused: no meaning of this model refuses. -/
inductive Refusal where
  /-- Raised by an arm of `exec` whose operation has no meaning yet (none of them): safe, for the machine stops. -/
  | notModelled (mnemonic : String)
  deriving DecidableEq, Repr

/-- All the state the spec gives the block, and the inputs and outputs of its surroundings as plain data. -/
structure State where
  /-- LAST, the raw byte of the most recent read of the running SAMPLE (R11). -/
  last : Byte
  /-- RUN, the length of the run of equal bytes that ends at the most recent read (R12). -/
  run : BitVec 2
  /-- ITER, the reads the running SAMPLE has made (R12). -/
  iter : BitVec 7
  /-- S[0..5], the inverted samples (R13). -/
  smp : SampleBuffer
  /-- DS, the inverted fifth sample of a DETECT (R14). -/
  ds : Byte
  /-- OP, the accepted command (R15). -/
  op : Op
  /-- PORT, the port of the accepted command (R15). -/
  port : Port
  /-- PROG, the running schedule (R16). -/
  prog : Prog
  /-- STEP, the index of the current entry of the schedule (R16). -/
  stepIx : BitVec 3
  /-- PH, the phase of the current entry (R16). -/
  ph : Phase
  /-- BUSY (R18). -/
  busy : Bool
  /-- DONE (R19). -/
  done : Bool
  /-- TYPE, the code of a DeviceType (R20). -/
  devType : BitVec 2
  /-- EXT, the extended slot, 7 for none (R21). -/
  ext : BitVec 3
  /-- RESULT, a NormalizedState (R22). -/
  result : NormalizedState
  /-- TH[A], the strobe level last driven on port A (R24). -/
  thA : Level
  /-- TH[B], the strobe level last driven on port B (R24). -/
  thB : Level
  /-- TYPE holds a value: it was written since reset (R26; log 5). -/
  typeHeld : Bool
  /-- RESULT and EXT hold a value: they were written since reset (R26; log 5). -/
  resultHeld : Bool
  /-- TH[A] holds a value: it was written since reset (R26; log 5). -/
  thAHeld : Bool
  /-- TH[B] holds a value: it was written since reset (R26; log 5). -/
  thBHeld : Bool
  /-- The bus accesses made so far, in order (00_scope.md R8). -/
  trace : List BusEvent
  /-- INPUT: the host's moves at the coming steps (log 1). -/
  host : List HostMove
  /-- INPUT: the bytes the environment returns to the coming reads; past its end a read draws the free value (log 2). -/
  answers : List Byte
  /-- OUTPUT: what the host's last call of FORMAT returned (log 10). -/
  fmtOut : Option (List Char)
  deriving DecidableEq, Repr

/-- The block right after reset: BUSY = 0 and DONE = 0 (R26, 70_reset_and_hazards.md R108). Every other value here is the
model's (DESIGN CHOICE, unsafe: log 4), and the four `Held` flags record that the spec gives none (log 5). -/
def State.reset : State where
  last := 0
  run := 0
  iter := 0
  smp := #v[0, 0, 0, 0, 0, 0]
  ds := 0
  op := .detect
  port := .a
  prog := .det
  stepIx := 0
  ph := .wr
  busy := false
  done := false
  devType := 0
  ext := 7
  result := 0
  thA := .low
  thB := .low
  typeHeld := false
  resultHeld := false
  thAHeld := false
  thBHeld := false
  trace := []
  host := []
  answers := []
  fmtOut := none

end Sys2Proof.Machine
end

