-- ==== Sys2Proof/Machine/Operands.lean ====
section
/-! DEFINITION. How the operations read their operands: inversion and the low nibble of a byte (00_scope.md R6), the three
schedules and what their entries name (30_encoding.md R52), and the word a host move presents (47_sequencer.md R81). -/

namespace Sys2Proof.Machine

/-- `inv(v)`, the complement of all eight bits (00_scope.md R6, D26). -/
def inv (v : Byte) : Byte := v ^^^ 0xFF#8

/-- `v[3:0]`. -/
def lowNibble (v : Byte) : Nibble := v.extractLsb' 0 4

/-- Where a schedule's entry puts the inverted result of its SAMPLE (30_encoding.md R52). -/
inductive Dest where
  | discard
  | ds
  | smp (i : Fin 6)
  deriving DecidableEq, Repr

/-- The three hardwired schedules (30_encoding.md R52). -/
def schedule : Prog → List (Level × Dest)
  | .det => [(.low, .discard), (.high, .discard), (.low, .discard), (.high, .discard), (.low, .ds)]
  | .r3 => [(.low, .discard), (.high, .smp 1), (.low, .smp 0)]
  | .r6 => [(.high, .discard), (.low, .smp 0), (.high, .smp 1), (.low, .smp 2), (.high, .smp 3), (.low, .smp 4),
      (.high, .smp 5), (.high, .discard)]

/-- `last(PROG)`, the index of a schedule's last entry (47_sequencer.md R86). -/
def lastIx : Prog → BitVec 3
  | .det => 4
  | .r3 => 2
  | .r6 => 7

/-- `SCHEDULE[PROG][STEP]`; past the schedule's end, where no run comes, a low entry that is discarded (log 12). -/
def entry (g : Prog) (k : BitVec 3) : Level × Dest := (schedule g).getD k.toNat (.low, .discard)

/-- The schedule a command starts with (47_sequencer.md R82). -/
def Op.firstProg : Op → Prog
  | .detect => .det
  | .read3 => .r3
  | .read6 => .r6
  | .read => .det

/-- The code of the register OP (30_encoding.md R51). -/
def Op.code : Op → BitVec 2
  | .detect => 0
  | .read3 => 1
  | .read6 => 2
  | .read => 3

/-- The micro-operation the sequencer issues next: the strobe write of the current entry, or a read of its SAMPLE
(47_sequencer.md R86). -/
def State.microOp (s : State) : Instr :=
  match s.ph with
  | .wr => .setStrobe s.port (entry s.prog s.stepIx).1
  | .rd => .sample s.port

/-- What the host does at this step; a host whose list has ended presents nothing. -/
def State.move (s : State) : HostMove := s.host.headD .wait

/-- The word a host move presents on CMD with START raised (47_sequencer.md R81). -/
def HostMove.word : HostMove → Option OpWord
  | .wait => none
  | .present w => some w
  | .call w => some w
  | .format _ => none
  | .reset => none

/-- What an idle block runs when the host presents a word: a host command, or the reserved word's nothing; the words of the
two micro-operations run nothing (30_encoding.md R55, 47_sequencer.md R82, R84). -/
def hostInstr (w : OpWord) : Option Instr :=
  match decodeWord w with
  | .setStrobe _ _ => none
  | .sample _ => none
  | i => some i

/-- What an idle block runs at a host move: a call of the pure formatter, or the operation of the presented word. -/
def HostMove.instr : HostMove → Option Instr
  | .format st => some (.format st)
  | m => m.word.bind hostInstr

end Sys2Proof.Machine
end

