-- ==== Sys2Proof/Machine/Flags.lean ====
section
/-! DEFINITION. Every flag computation of the block, each a pure function: the twelve button flags and their packing, the
device classification, the two decoders and the formatter (30_encoding.md R46 to R50, 42_detect.md R66, 43_read3.md R69,
44_read6.md R72 to R74, 46_format.md R79). -/

namespace Sys2Proof.Machine

/-- The twelve flags of a NormalizedState (30_encoding.md R46). -/
structure Buttons where
  mode : Bool
  z : Bool
  y : Bool
  x : Bool
  start : Bool
  c : Bool
  b : Bool
  a : Bool
  right : Bool
  left : Bool
  down : Bool
  up : Bool
  deriving DecidableEq, Repr

/-- The flags in their bits, Mode in bit 11 down to Up in bit 0 (30_encoding.md R46). -/
def packButtons (f : Buttons) : NormalizedState :=
  BitVec.ofBool f.mode ++ BitVec.ofBool f.z ++ BitVec.ofBool f.y ++ BitVec.ofBool f.x ++
  BitVec.ofBool f.start ++ BitVec.ofBool f.c ++ BitVec.ofBool f.b ++ BitVec.ofBool f.a ++
  BitVec.ofBool f.right ++ BitVec.ofBool f.left ++ BitVec.ofBool f.down ++ BitVec.ofBool f.up

/-- `CLASSIFY(n)`; the test for Six comes first (42_detect.md R66). -/
def classify (n : Nibble) : DeviceType :=
  if n = 0xF#4 then .six
  else if n &&& 0xC#4 = 0xC#4 then .three
  else .legacy2

/-- The flags both decoders read in the same way: directions, B and C from the high-phase byte, A and Start from the
low-phase byte (43_read3.md R69, 44_read6.md R74), and the four extended flags as given. -/
def decodeButtons (lo hi : Byte) (mode z y x : Bool) : Buttons where
  mode := mode
  z := z
  y := y
  x := x
  start := lo.getLsbD 6
  c := hi.getLsbD 6
  b := hi.getLsbD 5
  a := lo.getLsbD 5
  right := hi.getLsbD 3
  left := hi.getLsbD 2
  down := hi.getLsbD 1
  up := hi.getLsbD 0

/-- `DEC3(sh, sl)` (43_read3.md R69). -/
def dec3 (sh sl : Byte) : NormalizedState := packButtons (decodeButtons sl sh false false false false)

/-- The candidates for the extended slot, in the order they are tried (44_read6.md R72, R76). -/
def candidates : List (Fin 6) := [4, 2, 5, 3]

/-- A sample qualifies as the extended slot when its low nibble differs from the reference, the low nibble of S[1], and is
not the sentinel 0xF (44_read6.md R72). -/
def qualifies (S : SampleBuffer) (i : Fin 6) : Bool :=
  lowNibble S[i] != lowNibble S[1] && lowNibble S[i] != 0xF#4

/-- `EXTSLOT(S)` (44_read6.md R72). -/
def extSlot (S : SampleBuffer) : Option (Fin 6) := candidates.find? (qualifies S)

/-- The code of an extended slot in the register EXT, 7 for none (10_state.md R21). -/
def extCode : Option (Fin 6) → BitVec 3
  | none => 7
  | some i => BitVec.ofNat 3 i.val

/-- The OR of the samples at the given indices, the extended slot left out (44_read6.md R73). -/
def orExcept (S : SampleBuffer) (e : Option (Fin 6)) (is : List (Fin 6)) : Byte :=
  (is.filter (fun i => e ≠ some i)).foldl (fun acc i => acc ||| S[i]) 0

/-- `MERGE(S, e)`: the low-phase samples into th0, the high-phase samples into th1 (44_read6.md R73). -/
def merge (S : SampleBuffer) (e : Option (Fin 6)) : Byte × Byte := (orExcept S e [0, 2, 4], orExcept S e [1, 3, 5])

/-- `DEC6(th0, th1, S, e)`: nibble bit 0 of the extended slot is Z, bit 1 Y, bit 2 X, bit 3 Mode (44_read6.md R74,
30_encoding.md R50). -/
def dec6 (th0 th1 : Byte) (S : SampleBuffer) (e : Option (Fin 6)) : NormalizedState :=
  match e with
  | none => packButtons (decodeButtons th0 th1 false false false false)
  | some i =>
    packButtons (decodeButtons th0 th1 (S[i].getLsbD 3) (S[i].getLsbD 0) (S[i].getLsbD 1) (S[i].getLsbD 2))

/-- What READ6 makes of its six samples: EXTSLOT, MERGE and DEC6 in turn (44_read6.md R71). -/
def decodeSix (S : SampleBuffer) : NormalizedState :=
  let e := extSlot S
  let m := merge S e
  dec6 m.1 m.2 S e

/-- `FORMAT(s)`: twelve characters, the most significant flag first (46_format.md R79). -/
def formatState (st : NormalizedState) : List Char :=
  (List.range 12).map fun i => if st.getLsbD (11 - i) then '1' else '0'

end Sys2Proof.Machine
end

