-- ==== Sys2Proof/Machine/Ops.lean ====
section
/-! DEFINITION. The named operations over the block's registers and its bus: the two bus accesses (20_memory.md R30, R31), a
read of SAMPLE (40_sampler.md R62), the hand-over of a finished SAMPLE and the end of a schedule (47_sequencer.md R86, R87),
acceptance and completion (R82, R87), reset (70_reset_and_hazards.md R108, R109), and the host's views of the outputs.
The block takes no exception (60_exceptions.md R94, R100), so there is none to take here. -/

namespace Sys2Proof.Machine

/-- The level port p's strobe output was last driven to (10_state.md R24). -/
def State.th (s : State) : Port → Level
  | .a => s.thA
  | .b => s.thB

/-- Port p's strobe output holds a value (10_state.md R26). -/
def State.thHeld (s : State) : Port → Bool
  | .a => s.thAHeld
  | .b => s.thBHeld

/-- `TH[p] <- l`; the other port's output is left alone (10_state.md R24). -/
def State.setTh (p : Port) (l : Level) (s : State) : State :=
  match p with
  | .a => { s with thA := l, thAHeld := true }
  | .b => { s with thB := l, thBHeld := true }

/-- One more event at the end of the bus trace (20_memory.md R38). -/
def State.log (e : BusEvent) (s : State) : State := { s with trace := s.trace ++ [e] }

/-- The byte the environment returns if DATA[p] is read now: the next scripted answer, or the free value
(20_memory.md R33; log 2). -/
def State.nextByte (p : Port) (s : State) : Byte :=
  match s.answers with
  | v :: _ => v
  | [] => Config.envByte s.trace p

/-- `IORead(DATA[p])`: the state after the access; the byte is `s.nextByte p` (20_memory.md R30). -/
def State.ioRead (p : Port) (s : State) : State :=
  { s.log (.read p (s.nextByte p)) with answers := s.answers.tail }

/-- `IOWrite(CTRL, c)` (20_memory.md R31). -/
def State.ioWrite (c : Byte) (s : State) : State := s.log (.write c)

/-- The body of SETSTROBE: one control write, and TH[p] follows (41_strobe.md R63). -/
def State.strobe (p : Port) (l : Level) (s : State) : State := (s.ioWrite (Config.code p l)).setTh p l

/-- A SAMPLE starts: RUN and ITER are cleared (40_sampler.md R60, R62). -/
def State.startSample (s : State) : State := { s with run := 0, iter := 0 }

/-- RUN after a read that returned v (40_sampler.md R62): 1 at the SAMPLE's first read or when the byte changed. -/
def State.runAfter (v : Byte) (s : State) : BitVec 2 :=
  if s.iter + 1 = 1 ∨ v ≠ s.last then 1 else s.run + 1

/-- One read of a SAMPLE: one pass of the loop of 40_sampler.md R60, the read step of R62. -/
def State.sampleRead (p : Port) (s : State) : State :=
  { s.ioRead p with last := s.nextByte p, run := s.runAfter (s.nextByte p), iter := s.iter + 1 }

/-- The SAMPLE is finished: `RUN == STABLE_READS or ITER == STABLE_MAX_ITERS` (40_sampler.md R60). -/
def State.sampleDone (s : State) : Bool :=
  s.run == BitVec.ofNat 2 Config.stableReads || s.iter == BitVec.ofNat 7 Config.stableMaxIters

/-- The inverted result of a finished SAMPLE goes to the entry's destination (47_sequencer.md R86). -/
def State.deliver (d : Dest) (s : State) : State :=
  match d with
  | .discard => s
  | .ds => { s with ds := inv s.last }
  | .smp i => { s with smp := s.smp.set i (inv s.last) }

/-- `TYPE <- CLASSIFY(DS[3:0])` (42_detect.md R65). -/
def State.writeType (s : State) : State :=
  { s with devType := (classify (lowNibble s.ds)).code, typeHeld := true }

/-- RESULT and EXT are written together (10_state.md R21). -/
def State.writeResult (r : NormalizedState) (e : BitVec 3) (s : State) : State :=
  { s with result := r, ext := e, resultHeld := true }

/-- What READ3 makes of its samples: RESULT <- DEC3(S[1], S[0]), EXT <- none (43_read3.md R68). -/
def State.writeThree (s : State) : State := s.writeResult (dec3 s.smp[1] s.smp[0]) (extCode none)

/-- What READ6 makes of its samples (44_read6.md R71). -/
def State.writeSix (s : State) : State := s.writeResult (decodeSix s.smp) (extCode (extSlot s.smp))

/-- `COMPLETE` (47_sequencer.md R87). -/
def State.complete (s : State) : State := { s with done := true, busy := false }

/-- The sequencer goes to the first entry of a schedule (47_sequencer.md R82, R87). -/
def State.enter (g : Prog) (s : State) : State := { s with prog := g, stepIx := 0, ph := .wr }

/-- The schedule READ goes on with: R6 if TYPE is Six, else R3 (45_read.md R77). -/
def State.decodeProg (s : State) : Prog := if s.devType = DeviceType.six.code then .r6 else .r3

/-- `END_OF_SCHEDULE` (47_sequencer.md R87). -/
def State.endOfSchedule (s : State) : State :=
  match s.prog with
  | .det =>
    let t := s.writeType
    match s.op with
    | .read => t.enter t.decodeProg
    | _ => t.complete
  | .r3 => s.writeThree.complete
  | .r6 => s.writeSix.complete

/-- The sequencer goes to the next entry, or the schedule ends (47_sequencer.md R86). -/
def State.nextEntry (s : State) : State :=
  if s.stepIx < lastIx s.prog then { s with stepIx := s.stepIx + 1, ph := .wr } else s.endOfSchedule

/-- What the WR step does beside SETSTROBE: the entry's SAMPLE starts (47_sequencer.md R86). -/
def State.afterStrobe (s : State) : State := { s.startSample with ph := .rd }

/-- What the RD step does beside the read: a finished SAMPLE is handed over (47_sequencer.md R86). -/
def State.afterRead (s : State) : State :=
  if s.sampleDone then (s.deliver (entry s.prog s.stepIx).2).nextEntry else s

/-- `ACCEPT`: an idle block starts the command; a busy one does nothing (47_sequencer.md R82, R83). -/
def State.accept (o : Op) (p : Port) (s : State) : State :=
  if s.busy then s
  else { s.enter o.firstProg with busy := true, done := false, port := p, op := o }

/-- The host's move of this step is used up; a `call` stays until the block is idle (log 1). -/
def State.takeMove (s : State) : State :=
  match s.host with
  | .call _ :: ms => if s.busy then s else { s with host := ms }
  | ms => { s with host := ms.tail }

/-- The host gets the twelve characters of a state it called FORMAT on; no register is written and no bus access is made
(46_format.md R79; log 10). -/
def State.answerFormat (st : NormalizedState) (s : State) : State := { s with fmtOut := some (formatState st) }

/-- The host's side of a busy block's step: its move is used up, and a call of the pure formatter is answered beside the
bus access of that step, which it does not delay (46_format.md R79, 47_sequencer.md R86; log 10). -/
def State.hostTurn (s : State) : State :=
  match s.move with
  | .format st => s.takeMove.answerFormat st
  | _ => s.takeMove

/-- Reset: every register is as `State.reset` has it and no strobe output holds a value; the strobe lines stay where they
are, no bus access is made, and the surroundings go on (70_reset_and_hazards.md R108, R109; log 6). -/
def State.resetEvent (s : State) : State :=
  { State.reset with
    thA := s.thA, thB := s.thB, trace := s.trace, host := s.host, answers := s.answers, fmtOut := s.fmtOut }

/-- The view FMT; it has a value exactly when RESULT has one (10_state.md R23). -/
def State.fmt (s : State) : Option (List Char) := if s.resultHeld then some (formatState s.result) else none

/-- The outputs the host reads results from (47_sequencer.md R81). -/
inductive HostReg where
  | devType
  | ext
  | result
  | fmt
  deriving DecidableEq, Repr

/-- What a read of a result output delivers. -/
inductive HostValue where
  | devType (v : BitVec 2)
  | ext (v : BitVec 3)
  | result (v : NormalizedState)
  | fmt (v : List Char)
  deriving DecidableEq, Repr

/-- A host's read of a result output: its value when DONE = 1 and the register holds one, else no value
(10_state.md R26, 47_sequencer.md R85 (c), 70_reset_and_hazards.md R119; log 5). -/
def State.hostRead (r : HostReg) (s : State) : Option HostValue :=
  if s.done then
    match r with
    | .devType => if s.typeHeld then some (.devType s.devType) else none
    | .ext => if s.resultHeld then some (.ext s.ext) else none
    | .result => if s.resultHeld then some (.result s.result) else none
    | .fmt => s.fmt.map .fmt
  else none

/-- A strobe output's level, or none where it holds no value (10_state.md R24, R26). -/
def State.thValue (p : Port) (s : State) : Option Level := if s.thHeld p then some (s.th p) else none

end Sys2Proof.Machine
end

