-- ==== Sys2Proof/Machine/Commands.lean ====
section
/-! DEFINITION. The meanings of the host commands and of the reserved word. A command's own step is its acceptance, which
makes no bus access (47_sequencer.md R82); the transaction it starts then goes on one bus access a step (R86), by the two
micro-operations and the sequencer, up to its completion (R87). See log 7. -/

namespace Sys2Proof.Machine

/-- `DETECT p`: schedule DET, then TYPE (42_detect.md R65, 47_sequencer.md R82). -/
def execDetect (p : Port) (s : State) : Host.Outcome State Fault Refusal := .next (s.accept .detect p)

/-- `READ3 p`: schedule R3, then RESULT and EXT (43_read3.md R68, 47_sequencer.md R82). -/
def execRead3 (p : Port) (s : State) : Host.Outcome State Fault Refusal := .next (s.accept .read3 p)

/-- `READ6 p`: schedule R6, then RESULT and EXT (44_read6.md R71, 47_sequencer.md R82). -/
def execRead6 (p : Port) (s : State) : Host.Outcome State Fault Refusal := .next (s.accept .read6 p)

/-- `READ p`: schedule DET, then TYPE, then schedule R6 or R3, then RESULT and EXT (45_read.md R77, 47_sequencer.md R82). -/
def execRead (p : Port) (s : State) : Host.Outcome State Fault Refusal := .next (s.accept .read p)

/-- The reserved word: nothing changes and nothing is raised, whichever the port bit (30_encoding.md R55, 47_sequencer.md
R84; log 8). -/
def execReserved (_p : Port) (s : State) : Host.Outcome State Fault Refusal := .next s

end Sys2Proof.Machine
end

