-- ==== Sys2Proof/Machine/Formatter.lean ====
section
/-! DEFINITION. The meaning of FORMAT, a pure function: no register of the block is written and no bus access is made
(46_format.md R79, R80). -/

namespace Sys2Proof.Machine

/-- `FORMAT st`: its twelve characters go back to the caller, as the output `fmtOut` (46_format.md R79; log 10). -/
def execFormat (st : NormalizedState) (s : State) : Host.Outcome State Fault Refusal :=
  .next (s.answerFormat st)

end Sys2Proof.Machine
end

