-- ==== Sys2Proof/Machine/MicroOps.lean ====
section
/-! DEFINITION. The meanings of the two micro-operations, which only the sequencer issues (47_sequencer.md R84, R86), each
one bus access. -/

namespace Sys2Proof.Machine

/-- `SETSTROBE p, l`: the control write, and TH[p] (41_strobe.md R63). -/
def execSetStrobe (p : Port) (l : Level) (s : State) : Host.Outcome State Fault Refusal := .next (s.strobe p l)

/-- `SAMPLE p`: one read of the running SAMPLE, one pass of the loop of 40_sampler.md R60; the SAMPLE is repeated until
`State.sampleDone` (the single-step form of R62; log 7). -/
def execSample (p : Port) (s : State) : Host.Outcome State Fault Refusal := .next (s.sampleRead p)

end Sys2Proof.Machine
end

