-- ==== Sys2Proof/Machine/Dispatch.lean ====
section
/-! DEFINITION. One arm a constructor of Instr, each one call of that operation's meaning. -/

namespace Sys2Proof.Machine

def exec (i : Instr) (s : State) : Host.Outcome State Fault Refusal :=
  match i with
  | .detect p => Sys2Proof.Machine.execDetect p s
  | .read3 p => Sys2Proof.Machine.execRead3 p s
  | .read6 p => Sys2Proof.Machine.execRead6 p s
  | .read p => Sys2Proof.Machine.execRead p s
  | .setStrobe p l => Sys2Proof.Machine.execSetStrobe p l s
  | .sample p => Sys2Proof.Machine.execSample p s
  | .format st => Sys2Proof.Machine.execFormat st s
  | .reserved p => Sys2Proof.Machine.execReserved p s

end Sys2Proof.Machine
end

