-- ==== Sys2Proof/Machine/Fetch.lean ====
section
/-! DEFINITION. What the block does at its next step, and the sequencer's work beside the micro-operation
(47_sequencer.md R82 to R87, 60_exceptions.md R99). -/

namespace Sys2Proof.Machine

/-- What one step is. -/
inductive Activity where
  /-- The reset input is asserted. -/
  | reset
  /-- Nothing is running and nothing is accepted (60_exceptions.md R107). -/
  | idle
  /-- An operation the host presents. -/
  | hostOp (i : Instr)
  /-- The micro-operation the sequencer issues. -/
  | microOp (i : Instr)
  deriving DecidableEq, Repr

/-- What the block does at its next step. Reset wins over everything (60_exceptions.md R99 (f)); a busy block makes its next
bus access and never waits, whatever else the host does (47_sequencer.md R83, R86; log 9); an idle block runs what the host
presents or calls (R82, R84; log 10). -/
def State.activity (s : State) : Activity :=
  match s.move with
  | .reset => .reset
  | m =>
    if s.busy then .microOp s.microOp
    else
      match m.instr with
      | some i => .hostOp i
      | none => .idle

/-- The sequencer's work after the micro-operation of a phase (47_sequencer.md R86). -/
def State.afterMicroOp (ph : Phase) (s : State) : State :=
  match ph with
  | .wr => s.afterStrobe
  | .rd => s.afterRead

/-- The sequencer's work on an outcome of a micro-operation. -/
def advance (ph : Phase) : Host.Outcome State Fault Refusal → Host.Outcome State Fault Refusal
  | .next t => .next (t.afterMicroOp ph)
  | .fault r => .fault r
  | .refused r => .refused r

/-- An entry of schedule DET that writes the given level: entry 0 or entry 1 (30_encoding.md R52). -/
def detStep : Level → BitVec 3
  | .low => 0
  | .high => 1

/-- The state in which the next step runs the given operation: the host presents its word to an idle block, or the
sequencer stands at it in schedule DET, or the host calls the formatter while the block is idle (log 13). -/
def State.place (i : Instr) (s : State) : State :=
  match i with
  | .setStrobe p l =>
    { s with busy := true, port := p, prog := .det, stepIx := detStep l, ph := .wr, host := .wait :: s.host }
  | .sample p =>
    { s with busy := true, port := p, prog := .det, stepIx := 0, ph := .rd, run := 0, iter := 0, host := .wait :: s.host }
  | .format st => { s with busy := false, host := .format st :: s.host }
  | j => { s with busy := false, host := .present ((encodeWord j).getD 0) :: s.host }

end Sys2Proof.Machine
end

