-- ==== Sys2Proof/Machine/Step.lean ====
section
/-! DEFINITION. One step of the block: one bus access while BUSY = 1, else an acceptance, a call of the formatter, a reset
or nothing (47_sequencer.md R82, R86, 60_exceptions.md R107); and the placing of an operation at the next step. -/

namespace Sys2Proof.Machine

/-- One step. A busy block's step answers the host's call of the formatter, if there is one, beside its bus access. -/
def step (s : State) : Host.Outcome State Fault Refusal :=
  match s.activity with
  | .reset => .next s.takeMove.resetEvent
  | .idle => .next s.takeMove
  | .hostOp i => exec i s.takeMove
  | .microOp i => advance s.ph (exec i s.hostTurn)

/-- The state whose next step runs the operation whose bits are w, as spec/opcode_table.json numbers them (log 13). -/
def State.withFetchWord (s : State) (nbits w : Nat) : State :=
  match decodeTableWord nbits w with
  | some i => s.place i
  | none => s

end Sys2Proof.Machine
end

