-- ==== Sys2Proof/Machine/Procedures.lean ====
section
/-! DEFINITION. The operations as the sequential procedures of the spec's operation files, a whole transaction at once: the
big-step form of 47_sequencer.md R89. The step does not use it; R89 says that both forms define the same function, and
the statements compare them. -/

namespace Sys2Proof.Machine

/-- The loop of SAMPLE, at most the given number of reads (40_sampler.md R60). -/
def State.sampleLoop (p : Port) : Nat → State → State
  | 0, s => s
  | n + 1, s =>
    let t := s.sampleRead p
    if t.sampleDone then t else t.sampleLoop p n

/-- `SAMPLE p` whole; its result is LAST (40_sampler.md R60). -/
def State.sampleAll (p : Port) (s : State) : State := s.startSample.sampleLoop p Config.stableMaxIters

/-- `SETSTROBE(p, l) ; v <- SAMPLE(p)`, and inv(v) to its destination (42_detect.md R65, 43_read3.md R68, 44_read6.md R71). -/
def State.strobeSample (p : Port) (l : Level) (d : Dest) (s : State) : State := ((s.strobe p l).sampleAll p).deliver d

/-- The body of DETECT (42_detect.md R65). -/
def State.detectBody (p : Port) (s : State) : State :=
  let s := s.strobeSample p .low .discard
  let s := s.strobeSample p .high .discard
  let s := s.strobeSample p .low .discard
  let s := s.strobeSample p .high .discard
  let s := s.strobeSample p .low .ds
  s.writeType

/-- The body of READ3 (43_read3.md R68). -/
def State.read3Body (p : Port) (s : State) : State :=
  let s := s.strobeSample p .low .discard
  let s := s.strobeSample p .high (.smp 1)
  let s := s.strobeSample p .low (.smp 0)
  s.writeThree

/-- The body of READ6 (44_read6.md R71). -/
def State.read6Body (p : Port) (s : State) : State :=
  let s := s.strobeSample p .high .discard
  let s := s.strobeSample p .low (.smp 0)
  let s := s.strobeSample p .high (.smp 1)
  let s := s.strobeSample p .low (.smp 2)
  let s := s.strobeSample p .high (.smp 3)
  let s := s.strobeSample p .low (.smp 4)
  let s := s.strobeSample p .high (.smp 5)
  let s := s.strobeSample p .high .discard
  s.writeSix

/-- The body of READ: DETECT's, then READ6's if TYPE is Six, else READ3's (45_read.md R77). -/
def State.readBody (p : Port) (s : State) : State :=
  let s := s.detectBody p
  if s.devType = DeviceType.six.code then s.read6Body p else s.read3Body p

/-- The body of a host command. -/
def State.body : Op → Port → State → State
  | .detect, p, s => s.detectBody p
  | .read3, p, s => s.read3Body p
  | .read6, p, s => s.read6Body p
  | .read, p, s => s.readBody p

/-- A whole transaction: acceptance, body, completion (47_sequencer.md R89). -/
def State.transaction (o : Op) (p : Port) (s : State) : State := ((s.accept o p).body o p).complete

/-- The host command that is accepted as OP = o on a port (47_sequencer.md R82). -/
def Op.command : Op → Port → Instr
  | .detect, p => .detect p
  | .read3, p => .read3 p
  | .read6, p => .read6 p
  | .read, p => .read p

/-- The same state with the sequencer's position cleared: PROG, STEP and PH mean nothing while BUSY = 0 (10_state.md R16). -/
def State.forgetPosition (s : State) : State := s.enter .det

end Sys2Proof.Machine
end

