-- ==== Sys2Proof/Safety.lean ====
section
/-! DEFINITION. The terms claims use: runs of steps, the final states of 47_sequencer.md R88, hosts that leave a transaction
alone, the control writes of a trace, and the invariant every step keeps. -/

namespace Sys2Proof.Machine

/-- n steps of the block. -/
def run : Nat → State → Host.Outcome State Fault Refusal
  | 0, s => .next s
  | n + 1, s =>
    match step s with
    | .next t => run n t
    | .fault r => .fault r
    | .refused r => .refused r

/-- One operation executed n times in a row. -/
def execTimes (i : Instr) : Nat → State → Host.Outcome State Fault Refusal
  | 0, s => .next s
  | n + 1, s =>
    match exec i s with
    | .next t => execTimes i n t
    | .fault r => .fault r
    | .refused r => .refused r

/-- The move is no reset, so a busy block makes its next bus access (47_sequencer.md R86). -/
def HostMove.isQuiet : HostMove → Bool
  | .wait => true
  | .present _ => true
  | .call _ => true
  | .format _ => true
  | .reset => false

/-- The run is over: the block is idle and the host does nothing further (47_sequencer.md R88). -/
abbrev State.Final (s : State) : Prop := s.busy = false ∧ s.host = []

/-- The codes a trace wrote to CTRL, in order. -/
def busWrites (es : List BusEvent) : List Byte :=
  es.filterMap fun e =>
    match e with
    | .write c => some c
    | .read _ _ => none

/-- The levels a schedule writes, in order (30_encoding.md R52). -/
def Prog.levels (g : Prog) : List Level := (schedule g).map Prod.fst

/-- The schedule that runs is one the accepted command walks through; READ's second is the one TYPE chose
(47_sequencer.md R82, R87). -/
abbrev State.ProgFits (s : State) : Prop :=
  match s.op with
  | .detect => s.prog = .det
  | .read3 => s.prog = .r3
  | .read6 => s.prog = .r6
  | .read => s.prog = .det ∨ (s.prog = s.decodeProg ∧ s.typeHeld = true)

/-- The registers the last command wrote hold a value (10_state.md R19). -/
abbrev State.ResultsHeld (s : State) : Prop :=
  match s.op with
  | .detect => s.typeHeld = true
  | .read3 => s.resultHeld = true
  | .read6 => s.resultHeld = true
  | .read => s.typeHeld = true ∧ s.resultHeld = true

/-- What every state of a run is like, and every step keeps. -/
structure State.Inv (s : State) : Prop where
  /-- DeviceType code 3 is never produced (30_encoding.md R47, R55 (c)). -/
  typeLegal : s.devType ≠ 3
  /-- EXT codes 0, 1 and 6 are never produced (10_state.md R21, 30_encoding.md R55 (d)). -/
  extLegal : s.ext ≠ 0 ∧ s.ext ≠ 1 ∧ s.ext ≠ 6
  /-- Without an extended slot the four extended flags are clear (60_exceptions.md R97, 43_read3.md R70 (a)). -/
  noSlotNoFlags : s.ext = 7 → s.result.extractLsb' 8 4 = 0
  /-- X, Y, Z and Mode are never all set (44_read6.md R75 (c)). -/
  extendedNotAll : s.result.extractLsb' 8 4 ≠ 0xF
  /-- CTRL is written with nothing but the four codes (20_memory.md R35, 30_encoding.md R55 (e)). -/
  writesAreCodes : ∀ c, BusEvent.write c ∈ s.trace → ∃ p l, c = Config.code p l
  /-- BUSY and DONE are never both set (10_state.md R18, R19). -/
  busyNotDone : s.busy = true → s.done = false
  /-- With DONE = 1 the registers of the last command hold a value (10_state.md R19). -/
  doneHeld : s.done = true → s.ResultsHeld
  /-- STEP never exceeds the last index of the running schedule (10_state.md R16). -/
  stepBound : s.busy = true → s.stepIx ≤ lastIx s.prog
  /-- The running schedule belongs to the accepted command (47_sequencer.md R82, R87). -/
  progFits : s.busy = true → s.ProgFits
  /-- A running SAMPLE has made fewer than 64 reads and its run is shorter than 3 (10_state.md R12, 40_sampler.md R62). -/
  counters : s.busy = true → s.ph = .rd →
    s.run.toNat < 3 ∧ s.iter.toNat < 64 ∧ s.run.toNat ≤ s.iter.toNat ∧ (s.iter ≠ 0 → s.run ≠ 0)
  /-- A running SAMPLE is taken with the strobe at its entry's level (10_state.md R13, 70_reset_and_hazards.md R113). -/
  phaseLevel : s.busy = true → s.ph = .rd → s.th s.port = (entry s.prog s.stepIx).1 ∧ s.thHeld s.port = true
  /-- LAST is the byte of the most recent read of the running SAMPLE (10_state.md R11). -/
  lastRead : s.busy = true → s.ph = .rd → s.iter ≠ 0 → s.trace.getLast? = some (.read s.port s.last)

end Sys2Proof.Machine
end

