-- ==== Sys2Proof/Certificates/Slice0/Obligations.lean ====
section
/-! DEFINITION. The statements for the provers, each a proposition about the model; OBLIGATIONS.json says what each rests on. -/

open Sys2Proof Sys2Proof.Machine

/-! ### Encodings and parameters -/

/-- Every operation word, all sixteen written out from the table of 30_encoding.md R51, decodes to the operation it stands
for. The last clause, FORMAT's operand 0x081 in two bytes, rests on the byte layout, which is the model's choice (log 11). -/
def Obligations.OperationWordsDecodeAsListed : Prop :=
  decodeWord 0b0000#4 = .detect .a ∧ decodeWord 0b1000#4 = .detect .b ∧
  decodeWord 0b0001#4 = .read3 .a ∧ decodeWord 0b1001#4 = .read3 .b ∧
  decodeWord 0b0010#4 = .read6 .a ∧ decodeWord 0b1010#4 = .read6 .b ∧
  decodeWord 0b0011#4 = .read .a ∧ decodeWord 0b1011#4 = .read .b ∧
  decodeWord 0b0100#4 = .setStrobe .a .low ∧ decodeWord 0b0101#4 = .setStrobe .a .high ∧
  decodeWord 0b1100#4 = .setStrobe .b .low ∧ decodeWord 0b1101#4 = .setStrobe .b .high ∧
  decodeWord 0b0110#4 = .sample .a ∧ decodeWord 0b1110#4 = .sample .b ∧
  decodeWord 0b0111#4 = .reserved .a ∧ decodeWord 0b1111#4 = .reserved .b ∧
  decode [0x81#8, 0x00#8] = .ok (.format 0x081#12)

/-- Decoding an encoded operation gives it back, with every operand at every value, for every constructor; the byte layout
is the model's own (log 11). -/
def Obligations.DecodeInvertsEncode : Prop :=
  ∀ i : Instr, decode (encode i) = .ok i ∧ ∀ w : OpWord, encodeWord i = some w → decodeWord w = i

/-- The other direction: bytes that decode are the encoding of what they decode to, so no two byte lists decode to one
operation and nothing but an encoding decodes; the byte layout is the model's own (log 11). -/
def Obligations.OnlyEncodingsDecode : Prop :=
  ∀ (bs : List Byte) (i : Instr), decode bs = .ok i → encode i = bs

/-- The four control codes are pairwise different and the three registers have three addresses, whatever the OPEN
parameters are (00_scope.md R5, 20_memory.md R28, R36). -/
def Obligations.OpenParametersAreDistinct : Prop :=
  (∀ (p q : Port) (l m : Level), Config.code p l = Config.code q m → p = q ∧ l = m) ∧
  (∀ r r' : IoReg, Config.addr r = Config.addr r' → r = r')

/-! ### The step and the host interface -/

/-- A step runs the decoded instruction: an idle block runs exec on the command (or the reserved word) the host presents or
on the FORMAT it calls, and a busy block runs exec on the micro-operation its sequencer stands at and then does the
sequencer's own work (`afterStrobe`, `afterRead`). Beside that the step only uses up the host's move, and a busy block's
step answers a call of the formatter, by exec of FORMAT (`hostTurn`). The list of the host's moves is the model's choice
(log 1), and so is it that the host may call the formatter at any step (log 10): 46_format.md R79 gives the function, not
when it is called. -/
def Obligations.StepRunsTheFetchedOperation : Prop :=
  (∀ (s : State) (w : OpWord) (rest : List HostMove) (i : Instr), s.busy = false →
    (s.host = .present w :: rest ∨ s.host = .call w :: rest) → decodeWord w = i →
    (i.HostCommand ∨ ∃ p, i = .reserved p) → step s = exec i { s with host := rest }) ∧
  (∀ (s : State) (st : NormalizedState) (rest : List HostMove), s.busy = false → s.host = .format st :: rest →
    step s = exec (.format st) { s with host := rest }) ∧
  (∀ s t : State, s.busy = true → s.move.isQuiet = true → s.ph = .wr →
    exec (.setStrobe s.port (entry s.prog s.stepIx).1) s.hostTurn = .next t → step s = .next t.afterStrobe) ∧
  (∀ s t : State, s.busy = true → s.move.isQuiet = true → s.ph = .rd →
    exec (.sample s.port) s.hostTurn = .next t → step s = .next t.afterRead) ∧
  (∀ (s : State) (st : NormalizedState), s.move = .format st → exec (.format st) s.takeMove = .next s.hostTurn) ∧
  (∀ s : State, (∀ st, s.move ≠ .format st) → s.hostTurn = s.takeMove)

/-- An operation that `place` puts at the next step is run by the next step, for every operation and every state (log 13):
the state before exec differs from the placed one by the host's move alone, and behind a micro-operation the sequencer goes
on. -/
def Obligations.PlacedOperationRunsNext : Prop :=
  ∀ (s : State) (i : Instr),
    ((s.place i).takeMove = { s.place i with host := s.host }) ∧
    (match i with
      | .setStrobe p l =>
        ∀ t, exec (.setStrobe p l) (s.place i).takeMove = .next t → step (s.place i) = .next t.afterStrobe
      | .sample p => ∀ t, exec (.sample p) (s.place i).takeMove = .next t → step (s.place i) = .next t.afterRead
      | j => step (s.place i) = exec j (s.place i).takeMove)

/-- No step and no operation ever faults (60_exceptions.md R94), and none is ever refused. That the words which are no host
commands change nothing is the model's choice between what 30_encoding.md R55 and R94 allow, for they would let a model
refuse these words (log 8). -/
def Obligations.EveryStepAnswersNext : Prop :=
  (∀ s : State, ∃ t, step s = .next t) ∧ ∀ (i : Instr) (s : State), ∃ t, exec i s = .next t

/-- Acceptance (47_sequencer.md R82): each host command on an idle block is accepted in one step that makes no bus access;
the equations give every register, so all that is not named keeps its value. -/
def Obligations.IdleBlockAcceptsCommands : Prop :=
  (∀ (p : Port) (s : State), s.busy = false →
    exec (.detect p) s = .next { s with
      busy := true, done := false, port := p, op := .detect, prog := .det, stepIx := 0, ph := .wr } ∧
    exec (.read3 p) s = .next { s with
      busy := true, done := false, port := p, op := .read3, prog := .r3, stepIx := 0, ph := .wr } ∧
    exec (.read6 p) s = .next { s with
      busy := true, done := false, port := p, op := .read6, prog := .r6, stepIx := 0, ph := .wr } ∧
    exec (.read p) s = .next { s with
      busy := true, done := false, port := p, op := .read, prog := .det, stepIx := 0, ph := .wr }) ∧
  (∀ (s : State) (w : OpWord) (rest : List HostMove), s.busy = false → w.getLsbD 2 = false →
    s.host = .present w :: rest →
    ∃ t, step s = .next t ∧ t.busy = true ∧ t.done = false ∧ t.port = portOfBit (w.getLsbD 3) ∧
      t.op.code = w.extractLsb' 0 2 ∧ t.prog = t.op.firstProg ∧ t.stepIx = 0 ∧ t.ph = .wr ∧
      t = { s with
        busy := true, done := false, port := t.port, op := t.op, prog := t.prog, stepIx := 0, ph := .wr, host := rest })

/-- While BUSY = 1 a presented word has no effect on any register or on the bus trace and is not queued: the step is the one
of a host that presents nothing (47_sequencer.md R83); and a command executed on a busy block changes nothing. -/
def Obligations.BusyBlockAcceptsNothing : Prop :=
  (∀ (s : State) (w : OpWord) (rest : List HostMove), s.busy = true →
    step { s with host := .present w :: rest } = step { s with host := .wait :: rest }) ∧
  (∀ (p : Port) (s : State), s.busy = true →
    exec (.detect p) s = .next s ∧ exec (.read3 p) s = .next s ∧ exec (.read6 p) s = .next s ∧
    exec (.read p) s = .next s)

/-- The reserved word and the words of the two micro-operations are never accepted from the host, whatever BUSY is: no
register changes and no bus access is made on their account (47_sequencer.md R84, 30_encoding.md R55); the reserved word
as an operation changes nothing. -/
def Obligations.OtherWordsChangeNothing : Prop :=
  (∀ (s : State) (w : OpWord) (rest : List HostMove), w.getLsbD 2 = true → s.busy = false →
    step { s with host := .present w :: rest } = .next { s with host := rest }) ∧
  (∀ (s : State) (w : OpWord) (rest : List HostMove), w.getLsbD 2 = true → s.busy = true →
    step { s with host := .present w :: rest } = step { s with host := .wait :: rest }) ∧
  (∀ (p : Port) (s : State), exec (.reserved p) s = .next s)

/-- Nothing moves in a final state, and an idle block to which nothing is presented keeps every register
(47_sequencer.md R88, 60_exceptions.md R107). -/
def Obligations.IdleBlockIsStill : Prop :=
  (∀ s : State, s.Final → step s = .next s) ∧
  (∀ (s : State) (rest : List HostMove), s.busy = false → s.host = .wait :: rest → step s = .next { s with host := rest })

/-- The step makes exactly one bus access when the block is busy and not being reset, whatever else the host does, on the
latched port's registers and codes only, and none otherwise (47_sequencer.md R86, 20_memory.md R37, 70_reset_and_hazards.md
R108). -/
def Obligations.OneBusAccessAStep : Prop :=
  ∀ s t : State, step s = .next t →
    (s.busy = true → s.move.isQuiet = true → s.ph = .wr →
      t.trace = s.trace ++ [.write (Config.code s.port (entry s.prog s.stepIx).1)]) ∧
    (s.busy = true → s.move.isQuiet = true → s.ph = .rd →
      t.trace = s.trace ++ [.read s.port (s.nextByte s.port)]) ∧
    (s.busy = false ∨ s.move.isQuiet = false → t.trace = s.trace)

/-! ### The two micro-operations -/

/-- SETSTROBE makes one control write and sets TH of its port; the other port's TH and everything else is unchanged
(41_strobe.md R63), in every state and also when the level does not change; its operation word is `p10l`. -/
def Obligations.SetStrobeWritesOneCode : Prop :=
  ∀ (p : Port) (l : Level) (s : State), encodeWord (.setStrobe p l) = some (p.code ++ 0b10#2 ++ l.code) ∧
    ∃ t, exec (.setStrobe p l) s = .next t ∧
    t.trace = s.trace ++ [.write (Config.code p l)] ∧ t.th p = l ∧ t.thHeld p = true ∧
    (∀ q, q ≠ p → t.th q = s.th q ∧ t.thHeld q = s.thHeld q) ∧
    t = { s with
      trace := t.trace, thA := t.thA, thB := t.thB, thAHeld := t.thAHeld, thBHeld := t.thBHeld }

/-- One read of a SAMPLE: the byte is any byte (the scripted answer, or the free value), LAST takes it, ITER counts it, RUN
grows or starts anew; nothing else changes but the bus trace (40_sampler.md R60, R62). A statement about the free value:
it holds for every value of it. -/
def Obligations.SampleReadsOnce : Prop :=
  ∀ (p : Port) (s : State),
    exec (.sample p) s = .next { s with
      last := s.nextByte p
      iter := s.iter + 1
      run := if s.iter + 1 = 1 ∨ s.nextByte p ≠ s.last then 1 else s.run + 1
      trace := s.trace ++ [.read p (s.nextByte p)]
      answers := s.answers.tail } ∧
    (∀ v rest, s.answers = v :: rest → s.nextByte p = v) ∧
    (s.answers = [] → s.nextByte p = Config.envByte s.trace p)

/-- SAMPLE repeated from its start is finished after some n reads, 3 ≤ n ≤ 64, and not before, and the state is then that of
the whole procedure of 40_sampler.md R60, with ITER = n, for every behaviour of the environment. -/
def Obligations.SampleRepeatedIsTheProcedure : Prop :=
  ∀ (p : Port) (s : State), ∃ n, 3 ≤ n ∧ n ≤ 64 ∧
    execTimes (.sample p) n s.startSample = .next (s.sampleAll p) ∧
    (s.sampleAll p).sampleDone = true ∧ (s.sampleAll p).iter.toNat = n ∧
    ∀ m t, 0 < m → m < n → execTimes (.sample p) m s.startSample = .next t → t.sampleDone = false

/-- What SAMPLE returns (40_sampler.md R61): with r the bytes the environment returns, the least k ≤ 64 at which three equal
bytes in a row end is the number of reads and r(k) the result; without one, 64 reads and r(64). Nothing but LAST, RUN, ITER
and the bus trace is written. -/
def Obligations.SampleReturnsFirstStableByte : Prop :=
  ∀ (p : Port) (s : State) (r : Nat → Byte) (rest : List Byte),
    s.answers = (List.range 64).map (fun j => r (j + 1)) ++ rest →
    let stable : Nat → Prop := fun k => 3 ≤ k ∧ k ≤ 64 ∧ r (k - 2) = r (k - 1) ∧ r (k - 1) = r k
    let endsAt : Nat → Prop := fun k =>
      ∃ c, s.sampleAll p = { s with
        last := r k, run := c, iter := BitVec.ofNat 7 k
        trace := s.trace ++ (List.range k).map (fun j => .read p (r (j + 1)))
        answers := (List.range (64 - k)).map (fun j => r (k + j + 1)) ++ rest }
    (∀ k, stable k → (∀ j, j < k → ¬ stable j) → endsAt k) ∧ ((∀ k, ¬ stable k) → endsAt 64)

/-! ### The decoders and the formatter -/

/-- CLASSIFY (42_detect.md R66): nibble 0xF is Six, the nibbles 0xC, 0xD and 0xE are Three, every other is Legacy2. -/
def Obligations.ClassifyByNibble : Prop :=
  ∀ n : Nibble,
    (classify n = .six ↔ n = 0xF#4) ∧
    (classify n = .three ↔ n ≠ 0xF#4 ∧ n &&& 0xC#4 = 0xC#4) ∧
    (classify n = .legacy2 ↔ n.toNat < 0xC)

/-- DEC3 (43_read3.md R69), bit by bit. -/
def Obligations.ThreeButtonDecode : Prop :=
  ∀ sh sl : Byte,
    (dec3 sh sl).getLsbD 0 = sh.getLsbD 0 ∧ (dec3 sh sl).getLsbD 1 = sh.getLsbD 1 ∧
    (dec3 sh sl).getLsbD 2 = sh.getLsbD 2 ∧ (dec3 sh sl).getLsbD 3 = sh.getLsbD 3 ∧
    (dec3 sh sl).getLsbD 4 = sl.getLsbD 5 ∧ (dec3 sh sl).getLsbD 5 = sh.getLsbD 5 ∧
    (dec3 sh sl).getLsbD 6 = sh.getLsbD 6 ∧ (dec3 sh sl).getLsbD 7 = sl.getLsbD 6 ∧
    (dec3 sh sl).extractLsb' 8 4 = 0

/-- The eight flags of the 3-button decoder are independent: every value of RESULT[7:0] is produced by some pair of samples,
and X, Y, Z, Mode never (43_read3.md R70 (a), (b)). -/
def Obligations.ThreeButtonFlagsAreFree : Prop :=
  ∀ v : NormalizedState, (∃ sh sl, dec3 sh sl = v) ↔ v.toNat < 256

/-- EXTSLOT (44_read6.md R72): the first of 4, 2, 5, 3, in this order, whose low nibble differs from that of S[1] and is not
0xF; none if there is none. -/
def Obligations.ExtendedSlotIsFirstCandidate : Prop :=
  ∀ S : SampleBuffer,
    let q : Fin 6 → Prop := fun i => lowNibble S[i] ≠ lowNibble S[1] ∧ lowNibble S[i] ≠ 0xF#4
    (extSlot S = some 4 ↔ q 4) ∧
    (extSlot S = some 2 ↔ ¬ q 4 ∧ q 2) ∧
    (extSlot S = some 5 ↔ ¬ q 4 ∧ ¬ q 2 ∧ q 5) ∧
    (extSlot S = some 3 ↔ ¬ q 4 ∧ ¬ q 2 ∧ ¬ q 5 ∧ q 3) ∧
    (extSlot S = none ↔ ¬ q 4 ∧ ¬ q 2 ∧ ¬ q 5 ∧ ¬ q 3)

/-- MERGE (44_read6.md R73): a bit of th0 is set exactly when some low-phase sample other than the extended slot has it, and
so for th1 and the high-phase samples, for every slot the register can name and none. -/
def Obligations.MergeOrsThePhases : Prop :=
  ∀ (S : SampleBuffer) (e : Option (Fin 6)) (b : Nat),
    ((merge S e).1.getLsbD b = true ↔
      ∃ i : Fin 6, (i = 0 ∨ i = 2 ∨ i = 4) ∧ e ≠ some i ∧ S[i].getLsbD b = true) ∧
    ((merge S e).2.getLsbD b = true ↔
      ∃ i : Fin 6, (i = 1 ∨ i = 3 ∨ i = 5) ∧ e ≠ some i ∧ S[i].getLsbD b = true)

/-- DEC6 (44_read6.md R74), bit by bit. -/
def Obligations.SixButtonDecode : Prop :=
  ∀ (th0 th1 : Byte) (S : SampleBuffer) (e : Option (Fin 6)),
    let d := dec6 th0 th1 S e
    d.getLsbD 0 = th1.getLsbD 0 ∧ d.getLsbD 1 = th1.getLsbD 1 ∧
    d.getLsbD 2 = th1.getLsbD 2 ∧ d.getLsbD 3 = th1.getLsbD 3 ∧
    d.getLsbD 4 = th0.getLsbD 5 ∧ d.getLsbD 5 = th1.getLsbD 5 ∧
    d.getLsbD 6 = th1.getLsbD 6 ∧ d.getLsbD 7 = th0.getLsbD 6 ∧
    (e = none → d.extractLsb' 8 4 = 0) ∧
    (∀ i, e = some i →
      d.getLsbD 10 = S[i].getLsbD 0 ∧ d.getLsbD 9 = S[i].getLsbD 1 ∧
      d.getLsbD 8 = S[i].getLsbD 2 ∧ d.getLsbD 11 = S[i].getLsbD 3)

/-- READ6 never reports X, Y, Z and Mode all set; it reports none of them when no candidate deviates; and slot 4 with nibble
0b0101 sets exactly Z and X among them (44_read6.md R75 (a), (b), (c)). -/
def Obligations.ExtendedFlagsFollowTheSlot : Prop :=
  ∀ S : SampleBuffer,
    (decodeSix S).extractLsb' 8 4 ≠ 0xF#4 ∧
    ((∀ i : Fin 6, i = 2 ∨ i = 3 ∨ i = 4 ∨ i = 5 → lowNibble S[i] = lowNibble S[1] ∨ lowNibble S[i] = 0xF#4) →
      extSlot S = none ∧ (decodeSix S).extractLsb' 8 4 = 0) ∧
    (lowNibble S[4] = 0b0101#4 → lowNibble S[1] ≠ 0b0101#4 →
      extSlot S = some 4 ∧ (decodeSix S).extractLsb' 8 4 = 0b0101#4)

/-- Without an extended slot and with equal samples in each phase, READ6 decodes as READ3 (44_read6.md R75 (g)). -/
def Obligations.NoSlotDecodesAsThree : Prop :=
  ∀ S : SampleBuffer, extSlot S = none → S[0] = S[2] → S[2] = S[4] → S[1] = S[3] → S[3] = S[5] →
    decodeSix S = dec3 S[1] S[0]

/-- Bits 4 and 7 of a sample, and the directions of a low-phase sample of READ3, change no result (20_memory.md R34,
43_read3.md R69). -/
def Obligations.UnusedBitsChangeNothing : Prop :=
  (∀ sh sl : Byte, dec3 (sh &&& 0x6F#8) (sl &&& 0x60#8) = dec3 sh sl) ∧
  (∀ S : SampleBuffer, extSlot (S.map (· &&& 0x6F#8)) = extSlot S ∧ decodeSix (S.map (· &&& 0x6F#8)) = decodeSix S)

/-- FORMAT as a pure function (46_format.md R79): it has no operation word; its string has twelve characters, character i
shows bit 11 - i, and no two states share a string. -/
def Obligations.FormatRendersTheFlagsInOrder : Prop :=
  (∀ st : NormalizedState, encodeWord (.format st) = none ∧ (formatState st).length = 12 ∧
    ∀ i, i < 12 → (formatState st)[i]? = some (if st.getLsbD (11 - i) = true then '1' else '0')) ∧
  (∀ st st' : NormalizedState, formatState st = formatState st' → st = st')

/-- A call of FORMAT completes in every state, writes no register of the block, makes no bus access and holds up none: an
idle block keeps everything, and a busy block's step is the one of a host that presents nothing. The string stands in the
model's own output `fmtOut` (log 10). -/
def Obligations.FormatCallLeavesTheBlockAlone : Prop :=
  (∀ (st : NormalizedState) (s : State), exec (.format st) s = .next { s with fmtOut := some (formatState st) }) ∧
  (∀ (st : NormalizedState) (s : State) (rest : List HostMove), s.busy = false → s.host = .format st :: rest →
    step s = .next { s with host := rest, fmtOut := some (formatState st) }) ∧
  (∀ (st : NormalizedState) (s : State) (rest : List HostMove), s.busy = true → s.host = .format st :: rest →
    ∃ t, step { s with host := .wait :: rest } = .next t ∧ step s = .next { t with fmtOut := some (formatState st) })

/-! ### The sequencer -/

/-- The WR step (47_sequencer.md R86): one control write of the entry's level on the latched port, TH follows, the counters
are cleared, the phase becomes RD; nothing else changes but the host's used-up move and what a call of the formatter gives
it (logs 1 and 10). -/
def Obligations.WriteStepStrobes : Prop :=
  ∀ s : State, s.busy = true → s.ph = .wr → s.move.isQuiet = true →
    ∃ t, step s = .next t ∧
      t.trace = s.trace ++ [.write (Config.code s.port (entry s.prog s.stepIx).1)] ∧
      t.th s.port = (entry s.prog s.stepIx).1 ∧ t.thHeld s.port = true ∧
      (∀ q, q ≠ s.port → t.th q = s.th q ∧ t.thHeld q = s.thHeld q) ∧
      t = { s with
        trace := t.trace, thA := t.thA, thB := t.thB, thAHeld := t.thAHeld, thBHeld := t.thBHeld
        run := 0, iter := 0, ph := .rd, host := s.takeMove.host, fmtOut := s.hostTurn.fmtOut }

/-- The RD step within a schedule (47_sequencer.md R86): one read on the latched port; while the SAMPLE is not finished the
phase stays RD and nothing but LAST, RUN, ITER and the trace changes; a finished SAMPLE that is not the schedule's last goes
to its destination (S or nothing; DS is the destination of a last entry only) and the next entry follows. Beside that only
the host's move is used up and a call of the formatter answered (logs 1 and 10). -/
def Obligations.ReadStepGoesOn : Prop :=
  ∀ s : State, s.busy = true → s.ph = .rd → s.move.isQuiet = true →
    let r : State := { s with
      last := s.nextByte s.port
      run := if s.iter + 1 = 1 ∨ s.nextByte s.port ≠ s.last then 1 else s.run + 1
      iter := s.iter + 1
      trace := s.trace ++ [.read s.port (s.nextByte s.port)]
      answers := s.answers.tail
      host := s.takeMove.host
      fmtOut := s.hostTurn.fmtOut }
    (r.run ≠ 3 → r.iter ≠ 64 → step s = .next r) ∧
    (r.run = 3 ∨ r.iter = 64 → s.stepIx < lastIx s.prog →
      ((entry s.prog s.stepIx).2 = .discard → step s = .next { r with stepIx := s.stepIx + 1, ph := .wr }) ∧
      (∀ i, (entry s.prog s.stepIx).2 = .smp i →
        step s = .next { r with smp := s.smp.set i (inv r.last), stepIx := s.stepIx + 1, ph := .wr }) ∧
      (entry s.prog s.stepIx).2 ≠ .ds)

/-- The end of a schedule (47_sequencer.md R87): the read step that finishes the last SAMPLE classifies (schedule DET, which
ends DETECT and goes on with R6 or R3 in READ) or decodes (R3, R6), and completes. The last hypothesis says only what the
bytes give: the SAMPLE is finished by this read. Beside that only the host's move is used up and a call of the formatter
answered (logs 1 and 10). -/
def Obligations.LastReadStepEndsTheSchedule : Prop :=
  ∀ s : State, s.busy = true → s.ph = .rd → s.move.isQuiet = true →
    let r : State := { s with
      last := s.nextByte s.port
      run := if s.iter + 1 = 1 ∨ s.nextByte s.port ≠ s.last then 1 else s.run + 1
      iter := s.iter + 1
      trace := s.trace ++ [.read s.port (s.nextByte s.port)]
      answers := s.answers.tail
      host := s.takeMove.host
      fmtOut := s.hostTurn.fmtOut }
    let c := classify (lowNibble (inv r.last))
    r.run = 3 ∨ r.iter = 64 →
    (s.prog = .det → s.stepIx = 4 → s.op = .detect →
      step s = .next { r with
        ds := inv r.last, devType := c.code, typeHeld := true, done := true, busy := false }) ∧
    (s.prog = .det → s.stepIx = 4 → s.op = .read →
      step s = .next { r with
        ds := inv r.last, devType := c.code, typeHeld := true
        prog := if c = .six then .r6 else .r3, stepIx := 0, ph := .wr }) ∧
    (s.prog = .r3 → s.stepIx = 2 →
      step s = .next { r with
        smp := s.smp.set 0 (inv r.last), result := dec3 s.smp[1] (inv r.last), ext := 7, resultHeld := true
        done := true, busy := false }) ∧
    (s.prog = .r6 → s.stepIx = 7 →
      step s = .next { r with
        result := decodeSix s.smp, ext := extCode (extSlot s.smp), resultHeld := true, done := true, busy := false })

/-! ### Reset and the outputs -/

/-- Right after reset BUSY = 0 and DONE = 0, no strobe output holds a value and a host read of a result delivers nothing
(10_state.md R26, 70_reset_and_hazards.md R108). The values of the other registers are the model's choice (logs 4, 5) and
not stated. -/
def Obligations.ResetLeavesNoResult : Prop :=
  State.reset.busy = false ∧ State.reset.done = false ∧ (∀ r, State.reset.hostRead r = none) ∧
  (∀ p, State.reset.thValue p = none) ∧ State.reset.fmt = none ∧ State.reset.trace = []

/-- Reset in any state, also during a transaction: BUSY = 0, DONE = 0, no bus access, no output holds a value any longer and
no result is delivered; it wins over whatever the block was doing (70_reset_and_hazards.md R108, R109, 60_exceptions.md R99
(f), 10_state.md R26). That TH keeps its level is R109's word about the line; that it is kept in the register is the model's
choice (log 6), and so are the flags that record which register holds a value (log 5). -/
def Obligations.ResetAbandonsTheTransaction : Prop :=
  ∀ (s : State) (rest : List HostMove), s.host = .reset :: rest →
    ∃ t, step s = .next t ∧ t.busy = false ∧ t.done = false ∧ t.trace = s.trace ∧ t.answers = s.answers ∧
      t.host = rest ∧ t.typeHeld = false ∧ t.resultHeld = false ∧ t.fmt = none ∧ (∀ r, t.hostRead r = none) ∧
      (∀ p, t.th p = s.th p ∧ t.thHeld p = false ∧ t.thValue p = none)

/-- A host read delivers a result only when DONE = 1 and the register holds one, and FMT always is FORMAT of RESULT
(10_state.md R23, R26, 47_sequencer.md R85 (c), 70_reset_and_hazards.md R119; log 5). -/
def Obligations.HostReadsHeldResultsOnly : Prop :=
  ∀ s : State,
    (s.done = false → ∀ r, s.hostRead r = none) ∧
    (s.done = true → s.typeHeld = true → s.hostRead .devType = some (.devType s.devType)) ∧
    (s.done = true → s.resultHeld = true →
      s.hostRead .result = some (.result s.result) ∧ s.hostRead .ext = some (.ext s.ext) ∧
      s.hostRead .fmt = some (.fmt (formatState s.result))) ∧
    (s.typeHeld = false → s.hostRead .devType = none) ∧
    (s.resultHeld = false → s.hostRead .result = none ∧ s.hostRead .ext = none ∧ s.hostRead .fmt = none)

/-! ### The invariant -/

/-- The invariant holds right after reset; it rests on the reset values the model chose for TYPE, EXT and RESULT (log 4). -/
def Obligations.InvariantHoldsAtReset : Prop := State.reset.Inv

/-- Every step keeps the invariant, from every state that has it and whatever the host and the environment do. For a step in
which the host asserts reset the clauses typeLegal, extLegal, noSlotNoFlags and extendedNotAll rest on the values the model
gives TYPE, EXT and RESULT at reset (logs 4 and 6): 10_state.md R26 gives these registers no value then. -/
def Obligations.EveryStepKeepsTheInvariant : Prop :=
  ∀ s t : State, s.Inv → step s = .next t → t.Inv

/-! ### Whole transactions -/

/-- Every accepted command completes after a bounded number of steps, for every behaviour of the environment, and not before
its last bus access: the bounds of 47_sequencer.md R90 and 70_reset_and_hazards.md R123. The host may present words and
call the formatter, but does not reset the block. That the acceptance is the command's own exec and the rest of the
transaction the following steps is the model's form (log 7). -/
def Obligations.EveryCommandCompletes : Prop :=
  ∀ (o : Op) (p : Port) (s : State), s.busy = false → (∀ m ∈ s.host, m.isQuiet = true) →
    ∃ t n u, exec (o.command p) s = .next t ∧ run n t = .next u ∧ u.busy = false ∧ u.done = true ∧
      (∀ m v, m < n → run m t = .next v → v.busy = true ∧ v.done = false ∧ v.trace.length = s.trace.length + m) ∧
      u.trace.length = s.trace.length + n ∧
      match o with
      | .detect => 20 ≤ n ∧ n ≤ 325
      | .read3 => 12 ≤ n ∧ n ≤ 195
      | .read6 => 32 ≤ n ∧ n ≤ 520
      | .read =>
        (u.devType = DeviceType.six.code → 52 ≤ n ∧ n ≤ 845) ∧ (u.devType ≠ DeviceType.six.code → 32 ≤ n ∧ n ≤ 520)

/-- The step form and the procedure form define the same function (47_sequencer.md R89): the run of steps that an accepted
command starts ends in the state of the procedure of its own rule, in every field but the sequencer's position, which means
nothing when BUSY = 0 (10_state.md R16). Which of the two forms exec gives a command is the model's choice (log 7). The host
presents nothing meanwhile; `BusyBlockAcceptsNothing` says that a word it presents would change nothing. -/
def Obligations.StepsAgreeWithProcedures : Prop :=
  ∀ (o : Op) (p : Port) (s : State), s.busy = false → s.host = [] →
    ∃ t n u, exec (o.command p) s = .next t ∧ run n t = .next u ∧ u.busy = false ∧
      u.forgetPosition = (s.transaction o p).forgetPosition

/-- DETECT as a whole (42_detect.md R65): it is accepted, and its steps end with TYPE = CLASSIFY of the inverted last sample,
five strobe writes 0 1 0 1 0 on its own port, the line left low; RESULT, EXT, S, the other port's TH and everything not named
keep their value. The host presents nothing meanwhile. -/
def Obligations.DetectClassifiesTheFifthSample : Prop :=
  ∀ (p : Port) (s : State), s.busy = false → s.host = [] →
    ∃ t n u, exec (.detect p) s = .next t ∧ run n t = .next u ∧
      u.ds = inv u.last ∧ u.trace.getLast? = some (.read p u.last) ∧
      u.devType = (classify (lowNibble u.ds)).code ∧ u.th p = .low ∧ u.thHeld p = true ∧
      (∀ q, q ≠ p → u.th q = s.th q ∧ u.thHeld q = s.thHeld q) ∧
      s.trace <+: u.trace ∧
      busWrites u.trace = busWrites s.trace ++ [Level.low, .high, .low, .high, .low].map (Config.code p) ∧
      u = { s with
        last := u.last, run := u.run, iter := u.iter, ds := u.ds, op := .detect, port := p
        prog := u.prog, stepIx := u.stepIx, ph := u.ph, busy := false, done := true
        devType := u.devType, typeHeld := true
        thA := u.thA, thB := u.thB, thAHeld := u.thAHeld, thBHeld := u.thBHeld
        trace := u.trace, answers := u.answers }

/-- READ3 as a whole (43_read3.md R68): it is accepted, and its steps end with RESULT = DEC3(S[1], S[0]), EXT = none, S[0]
the inverted last sample, three strobe writes 0 1 0, the line left low; TYPE, DS, S[2] to S[5] and everything not named
keep their value. The host presents nothing meanwhile. -/
def Obligations.ReadThreeDecodesTwoSamples : Prop :=
  ∀ (p : Port) (s : State), s.busy = false → s.host = [] →
    ∃ t n u, exec (.read3 p) s = .next t ∧ run n t = .next u ∧
      u.smp[0] = inv u.last ∧ u.trace.getLast? = some (.read p u.last) ∧
      u.result = dec3 u.smp[1] u.smp[0] ∧ u.ext = 7 ∧ u.th p = .low ∧ u.thHeld p = true ∧
      (∀ i : Fin 6, 2 ≤ i → u.smp[i] = s.smp[i]) ∧
      (∀ q, q ≠ p → u.th q = s.th q ∧ u.thHeld q = s.thHeld q) ∧
      s.trace <+: u.trace ∧
      busWrites u.trace = busWrites s.trace ++ [Level.low, .high, .low].map (Config.code p) ∧
      u = { s with
        last := u.last, run := u.run, iter := u.iter, smp := u.smp, op := .read3, port := p
        prog := u.prog, stepIx := u.stepIx, ph := u.ph, busy := false, done := true
        result := u.result, ext := u.ext, resultHeld := true
        thA := u.thA, thB := u.thB, thAHeld := u.thAHeld, thBHeld := u.thBHeld
        trace := u.trace, answers := u.answers }

/-- READ6 as a whole (44_read6.md R71): it is accepted, and its steps end with RESULT and EXT decoded from S[0] to S[5], eight
strobe writes 1 0 1 0 1 0 1 1, the line left high; TYPE, DS and everything not named keep their value. The host presents nothing
meanwhile. -/
def Obligations.ReadSixDecodesSixSamples : Prop :=
  ∀ (p : Port) (s : State), s.busy = false → s.host = [] →
    ∃ t n u, exec (.read6 p) s = .next t ∧ run n t = .next u ∧
      u.result = dec6 (merge u.smp (extSlot u.smp)).1 (merge u.smp (extSlot u.smp)).2 u.smp (extSlot u.smp) ∧
      u.ext = extCode (extSlot u.smp) ∧ u.th p = .high ∧ u.thHeld p = true ∧
      (∀ q, q ≠ p → u.th q = s.th q ∧ u.thHeld q = s.thHeld q) ∧
      s.trace <+: u.trace ∧
      busWrites u.trace =
        busWrites s.trace ++ [Level.high, .low, .high, .low, .high, .low, .high, .high].map (Config.code p) ∧
      u = { s with
        last := u.last, run := u.run, iter := u.iter, smp := u.smp, op := .read6, port := p
        prog := u.prog, stepIx := u.stepIx, ph := u.ph, busy := false, done := true
        result := u.result, ext := u.ext, resultHeld := true
        thA := u.thA, thB := u.thB, thAHeld := u.thAHeld, thBHeld := u.thBHeld
        trace := u.trace, answers := u.answers }

/-- READ as a whole (45_read.md R77): it is accepted, and its steps end with TYPE = CLASSIFY(DS[3:0]) and RESULT and EXT
decoded as READ6 does if TYPE is Six and as READ3 does otherwise (Three and Legacy2 alike, without a mask), with the
strobe writes of both parts, the line left high or low; everything not named keeps its value. The
host presents nothing meanwhile. -/
def Obligations.ReadDetectsThenDecodes : Prop :=
  ∀ (p : Port) (s : State), s.busy = false → s.host = [] →
    ∃ t n u, exec (.read p) s = .next t ∧ run n t = .next u ∧
      u.devType = (classify (lowNibble u.ds)).code ∧
      (classify (lowNibble u.ds) = .six →
        u.result = decodeSix u.smp ∧ u.ext = extCode (extSlot u.smp) ∧ u.th p = .high ∧
        busWrites u.trace = busWrites s.trace ++ (Prog.det.levels ++ Prog.r6.levels).map (Config.code p)) ∧
      (classify (lowNibble u.ds) ≠ .six →
        u.result = dec3 u.smp[1] u.smp[0] ∧ u.ext = 7 ∧ u.th p = .low ∧
        (∀ i : Fin 6, 2 ≤ i → u.smp[i] = s.smp[i]) ∧
        busWrites u.trace = busWrites s.trace ++ (Prog.det.levels ++ Prog.r3.levels).map (Config.code p)) ∧
      u.thHeld p = true ∧ (∀ q, q ≠ p → u.th q = s.th q ∧ u.thHeld q = s.thHeld q) ∧
      s.trace <+: u.trace ∧
      u = { s with
        last := u.last, run := u.run, iter := u.iter, smp := u.smp, ds := u.ds, op := .read, port := p
        prog := u.prog, stepIx := u.stepIx, ph := u.ph, busy := false, done := true
        devType := u.devType, typeHeld := true, result := u.result, ext := u.ext, resultHeld := true
        thA := u.thA, thB := u.thB, thAHeld := u.thAHeld, thBHeld := u.thBHeld
        trace := u.trace, answers := u.answers }

/-- On lines that answer every read of a SAMPLE with one byte, DETECT classifies the fifth byte, READ3 takes sampleHigh from
its second and sampleLow from its third, READ6 takes low0, high0, low1, high1, low2, high2 from its second to seventh, and
READ classifies its fifth and then decodes the eight or three bytes that follow as READ6 or READ3 does (42_detect.md R65,
43_read3.md R68, 44_read6.md R71, 45_read.md R77, 40_sampler.md R61 (a)). -/
def Obligations.SteadyLinesAreDecoded : Prop :=
  let x3 : Byte → List Byte := fun b => [b, b, b]
  ∀ (p : Port) (s : State) (b0 b1 b2 b3 b4 b5 b6 b7 d0 d1 d2 d3 d4 : Byte) (rest : List Byte), s.busy = false →
    let det : List Byte := x3 d0 ++ x3 d1 ++ x3 d2 ++ x3 d3 ++ x3 d4
    let three : List Byte := x3 b0 ++ x3 b1 ++ x3 b2
    let six : List Byte := x3 b0 ++ x3 b1 ++ x3 b2 ++ x3 b3 ++ x3 b4 ++ x3 b5 ++ x3 b6 ++ x3 b7
    let samples : SampleBuffer := #v[inv b1, inv b2, inv b3, inv b4, inv b5, inv b6]
    let c := classify (lowNibble (inv d4))
    (s.answers = det ++ rest →
      (s.transaction .detect p).devType = c.code ∧ (s.transaction .detect p).answers = rest) ∧
    (s.answers = three ++ rest →
      (s.transaction .read3 p).result = dec3 (inv b1) (inv b2) ∧ (s.transaction .read3 p).ext = 7 ∧
      (s.transaction .read3 p).answers = rest) ∧
    (s.answers = six ++ rest →
      (s.transaction .read6 p).smp = samples ∧ (s.transaction .read6 p).result = decodeSix samples ∧
      (s.transaction .read6 p).ext = extCode (extSlot samples) ∧ (s.transaction .read6 p).answers = rest) ∧
    (s.answers = det ++ (six ++ rest) → c = .six →
      (s.transaction .read p).devType = c.code ∧ (s.transaction .read p).smp = samples ∧
      (s.transaction .read p).result = decodeSix samples ∧
      (s.transaction .read p).ext = extCode (extSlot samples) ∧ (s.transaction .read p).answers = rest) ∧
    (s.answers = det ++ (three ++ rest) → c ≠ .six →
      (s.transaction .read p).devType = c.code ∧ (s.transaction .read p).result = dec3 (inv b1) (inv b2) ∧
      (s.transaction .read p).ext = 7 ∧ (s.transaction .read p).answers = rest)

/-- READ gives the same bus trace, TYPE, RESULT, EXT and TH as DETECT followed at once by READ6 (if that gave Six) or READ3
(otherwise), for the same answers of the environment (45_read.md R78). -/
def Obligations.ReadIsDetectThenDecoder : Prop :=
  ∀ (p : Port) (s : State), s.busy = false →
    let d := s.transaction .detect p
    let e := if d.devType = DeviceType.six.code then d.transaction .read6 p else d.transaction .read3 p
    let u := s.transaction .read p
    u.trace = e.trace ∧ u.devType = e.devType ∧ u.result = e.result ∧ u.ext = e.ext ∧
    (∀ q, u.th q = e.th q) ∧ u.answers = e.answers ∧ u.busy = false ∧ u.done = true

/-- Nothing of an earlier transaction is seen by a later one (10_state.md R17, 70_reset_and_hazards.md R111): two idle blocks
that differ in any register, but not in what the environment will answer, make the same bus accesses and deliver the same
results. -/
def Obligations.TransactionsForgetOldRegisters : Prop :=
  ∀ (o : Op) (p : Port) (s t : State), s.busy = false → t.busy = false → s.trace = t.trace → s.answers = t.answers →
    let u := s.transaction o p
    let v := t.transaction o p
    u.trace = v.trace ∧ u.answers = v.answers ∧ u.th p = v.th p ∧ u.last = v.last ∧
    (o = .detect ∨ o = .read → u.devType = v.devType ∧ u.ds = v.ds) ∧
    (o ≠ .detect → u.result = v.result ∧ u.ext = v.ext)
end

