-- ==== Sys2Proof/Laws/Flags.lean ====
section
/-! SUPPORT. What the flag computations give, bit by bit. -/

namespace Sys2Proof.Machine

/-! ### The packing -/

/-- Bit 11 down to bit 0 of the packed flags, in the order of 30_encoding.md R46. -/
theorem packButtons_bits (f : Buttons) :
    (packButtons f).getLsbD 11 = f.mode ∧ (packButtons f).getLsbD 10 = f.z ∧ (packButtons f).getLsbD 9 = f.y ∧
    (packButtons f).getLsbD 8 = f.x ∧ (packButtons f).getLsbD 7 = f.start ∧ (packButtons f).getLsbD 6 = f.c ∧
    (packButtons f).getLsbD 5 = f.b ∧ (packButtons f).getLsbD 4 = f.a ∧ (packButtons f).getLsbD 3 = f.right ∧
    (packButtons f).getLsbD 2 = f.left ∧ (packButtons f).getLsbD 1 = f.down ∧ (packButtons f).getLsbD 0 = f.up := by
  refine ⟨?_, ?_, ?_, ?_, ?_, ?_, ?_, ?_, ?_, ?_, ?_, ?_⟩ <;>
    simp only [packButtons, BitVec.getLsbD_append, BitVec.getLsbD_ofBool] <;> simp

/-- The four extended flags are RESULT[11:8]. -/
theorem packButtons_extended (f : Buttons) :
    (packButtons f).extractLsb' 8 4 = BitVec.ofBool f.mode ++ BitVec.ofBool f.z ++ BitVec.ofBool f.y ++ BitVec.ofBool f.x := by
  have h := packButtons_bits f
  apply BitVec.eq_of_getLsbD_eq
  intro i hi
  have hi' : i = 0 ∨ i = 1 ∨ i = 2 ∨ i = 3 := by omega
  rcases hi' with rfl | rfl | rfl | rfl <;>
    simp only [BitVec.getLsbD_extractLsb', BitVec.getLsbD_append, BitVec.getLsbD_ofBool] <;> simp <;> simp_all

/-- No two sets of flags share a NormalizedState. -/
theorem packButtons_inj (f g : Buttons) (h : packButtons f = packButtons g) : f = g := by
  have hf := packButtons_bits f
  have hg := packButtons_bits g
  rw [h] at hf
  obtain ⟨f1, f2, f3, f4, f5, f6, f7, f8, f9, f10, f11, f12⟩ := hf
  obtain ⟨g1, g2, g3, g4, g5, g6, g7, g8, g9, g10, g11, g12⟩ := hg
  cases f; cases g
  simp_all

/-! ### The classification and the extended slot -/

/-- CLASSIFY gives one of the three codes. -/
theorem classify_code_ne (n : Nibble) : (classify n).code ≠ 3 := by revert n; decide

/-- A found slot is one of the candidates and qualifies. -/
theorem extSlot_some (S : SampleBuffer) (i : Fin 6) (h : extSlot S = some i) :
    qualifies S i = true ∧ (i = 4 ∨ i = 2 ∨ i = 5 ∨ i = 3) :=
  ⟨List.find?_some h, by simpa [candidates] using List.mem_of_find?_eq_some h⟩

/-- Without a slot no candidate qualifies. -/
theorem extSlot_none (S : SampleBuffer) (h : extSlot S = none) (i : Fin 6) (hi : i ∈ candidates) :
    qualifies S i = false := by
  simpa using List.find?_eq_none.mp h i hi

end Sys2Proof.Machine
end

