-- ==== Sys2Proof/Laws/State.lean ====
section
/-! SUPPORT. What each update of the state leaves in each field, one lemma a field and update, so that no later proof
unfolds a record update. -/

namespace Sys2Proof.Machine

/-! ### State.log -/

@[simp] theorem State.log_last (e : BusEvent) (s : State) : (s.log e).last = s.last := rfl
@[simp] theorem State.log_run (e : BusEvent) (s : State) : (s.log e).run = s.run := rfl
@[simp] theorem State.log_iter (e : BusEvent) (s : State) : (s.log e).iter = s.iter := rfl
@[simp] theorem State.log_smp (e : BusEvent) (s : State) : (s.log e).smp = s.smp := rfl
@[simp] theorem State.log_ds (e : BusEvent) (s : State) : (s.log e).ds = s.ds := rfl
@[simp] theorem State.log_op (e : BusEvent) (s : State) : (s.log e).op = s.op := rfl
@[simp] theorem State.log_port (e : BusEvent) (s : State) : (s.log e).port = s.port := rfl
@[simp] theorem State.log_prog (e : BusEvent) (s : State) : (s.log e).prog = s.prog := rfl
@[simp] theorem State.log_stepIx (e : BusEvent) (s : State) : (s.log e).stepIx = s.stepIx := rfl
@[simp] theorem State.log_ph (e : BusEvent) (s : State) : (s.log e).ph = s.ph := rfl
@[simp] theorem State.log_busy (e : BusEvent) (s : State) : (s.log e).busy = s.busy := rfl
@[simp] theorem State.log_done (e : BusEvent) (s : State) : (s.log e).done = s.done := rfl
@[simp] theorem State.log_devType (e : BusEvent) (s : State) : (s.log e).devType = s.devType := rfl
@[simp] theorem State.log_ext (e : BusEvent) (s : State) : (s.log e).ext = s.ext := rfl
@[simp] theorem State.log_result (e : BusEvent) (s : State) : (s.log e).result = s.result := rfl
@[simp] theorem State.log_thA (e : BusEvent) (s : State) : (s.log e).thA = s.thA := rfl
@[simp] theorem State.log_thB (e : BusEvent) (s : State) : (s.log e).thB = s.thB := rfl
@[simp] theorem State.log_typeHeld (e : BusEvent) (s : State) : (s.log e).typeHeld = s.typeHeld := rfl
@[simp] theorem State.log_resultHeld (e : BusEvent) (s : State) : (s.log e).resultHeld = s.resultHeld := rfl
@[simp] theorem State.log_thAHeld (e : BusEvent) (s : State) : (s.log e).thAHeld = s.thAHeld := rfl
@[simp] theorem State.log_thBHeld (e : BusEvent) (s : State) : (s.log e).thBHeld = s.thBHeld := rfl
@[simp] theorem State.log_trace (e : BusEvent) (s : State) : (s.log e).trace = s.trace ++ [e] := rfl
@[simp] theorem State.log_host (e : BusEvent) (s : State) : (s.log e).host = s.host := rfl
@[simp] theorem State.log_answers (e : BusEvent) (s : State) : (s.log e).answers = s.answers := rfl
@[simp] theorem State.log_fmtOut (e : BusEvent) (s : State) : (s.log e).fmtOut = s.fmtOut := rfl

/-! ### State.ioRead -/

@[simp] theorem State.ioRead_last (p : Port) (s : State) : (s.ioRead p).last = s.last := rfl
@[simp] theorem State.ioRead_run (p : Port) (s : State) : (s.ioRead p).run = s.run := rfl
@[simp] theorem State.ioRead_iter (p : Port) (s : State) : (s.ioRead p).iter = s.iter := rfl
@[simp] theorem State.ioRead_smp (p : Port) (s : State) : (s.ioRead p).smp = s.smp := rfl
@[simp] theorem State.ioRead_ds (p : Port) (s : State) : (s.ioRead p).ds = s.ds := rfl
@[simp] theorem State.ioRead_op (p : Port) (s : State) : (s.ioRead p).op = s.op := rfl
@[simp] theorem State.ioRead_port (p : Port) (s : State) : (s.ioRead p).port = s.port := rfl
@[simp] theorem State.ioRead_prog (p : Port) (s : State) : (s.ioRead p).prog = s.prog := rfl
@[simp] theorem State.ioRead_stepIx (p : Port) (s : State) : (s.ioRead p).stepIx = s.stepIx := rfl
@[simp] theorem State.ioRead_ph (p : Port) (s : State) : (s.ioRead p).ph = s.ph := rfl
@[simp] theorem State.ioRead_busy (p : Port) (s : State) : (s.ioRead p).busy = s.busy := rfl
@[simp] theorem State.ioRead_done (p : Port) (s : State) : (s.ioRead p).done = s.done := rfl
@[simp] theorem State.ioRead_devType (p : Port) (s : State) : (s.ioRead p).devType = s.devType := rfl
@[simp] theorem State.ioRead_ext (p : Port) (s : State) : (s.ioRead p).ext = s.ext := rfl
@[simp] theorem State.ioRead_result (p : Port) (s : State) : (s.ioRead p).result = s.result := rfl
@[simp] theorem State.ioRead_thA (p : Port) (s : State) : (s.ioRead p).thA = s.thA := rfl
@[simp] theorem State.ioRead_thB (p : Port) (s : State) : (s.ioRead p).thB = s.thB := rfl
@[simp] theorem State.ioRead_typeHeld (p : Port) (s : State) : (s.ioRead p).typeHeld = s.typeHeld := rfl
@[simp] theorem State.ioRead_resultHeld (p : Port) (s : State) : (s.ioRead p).resultHeld = s.resultHeld := rfl
@[simp] theorem State.ioRead_thAHeld (p : Port) (s : State) : (s.ioRead p).thAHeld = s.thAHeld := rfl
@[simp] theorem State.ioRead_thBHeld (p : Port) (s : State) : (s.ioRead p).thBHeld = s.thBHeld := rfl
@[simp] theorem State.ioRead_trace (p : Port) (s : State) : (s.ioRead p).trace = s.trace ++ [.read p (s.nextByte p)] := rfl
@[simp] theorem State.ioRead_host (p : Port) (s : State) : (s.ioRead p).host = s.host := rfl
@[simp] theorem State.ioRead_answers (p : Port) (s : State) : (s.ioRead p).answers = s.answers.tail := rfl
@[simp] theorem State.ioRead_fmtOut (p : Port) (s : State) : (s.ioRead p).fmtOut = s.fmtOut := rfl

/-! ### State.ioWrite -/

@[simp] theorem State.ioWrite_last (c : Byte) (s : State) : (s.ioWrite c).last = s.last := rfl
@[simp] theorem State.ioWrite_run (c : Byte) (s : State) : (s.ioWrite c).run = s.run := rfl
@[simp] theorem State.ioWrite_iter (c : Byte) (s : State) : (s.ioWrite c).iter = s.iter := rfl
@[simp] theorem State.ioWrite_smp (c : Byte) (s : State) : (s.ioWrite c).smp = s.smp := rfl
@[simp] theorem State.ioWrite_ds (c : Byte) (s : State) : (s.ioWrite c).ds = s.ds := rfl
@[simp] theorem State.ioWrite_op (c : Byte) (s : State) : (s.ioWrite c).op = s.op := rfl
@[simp] theorem State.ioWrite_port (c : Byte) (s : State) : (s.ioWrite c).port = s.port := rfl
@[simp] theorem State.ioWrite_prog (c : Byte) (s : State) : (s.ioWrite c).prog = s.prog := rfl
@[simp] theorem State.ioWrite_stepIx (c : Byte) (s : State) : (s.ioWrite c).stepIx = s.stepIx := rfl
@[simp] theorem State.ioWrite_ph (c : Byte) (s : State) : (s.ioWrite c).ph = s.ph := rfl
@[simp] theorem State.ioWrite_busy (c : Byte) (s : State) : (s.ioWrite c).busy = s.busy := rfl
@[simp] theorem State.ioWrite_done (c : Byte) (s : State) : (s.ioWrite c).done = s.done := rfl
@[simp] theorem State.ioWrite_devType (c : Byte) (s : State) : (s.ioWrite c).devType = s.devType := rfl
@[simp] theorem State.ioWrite_ext (c : Byte) (s : State) : (s.ioWrite c).ext = s.ext := rfl
@[simp] theorem State.ioWrite_result (c : Byte) (s : State) : (s.ioWrite c).result = s.result := rfl
@[simp] theorem State.ioWrite_thA (c : Byte) (s : State) : (s.ioWrite c).thA = s.thA := rfl
@[simp] theorem State.ioWrite_thB (c : Byte) (s : State) : (s.ioWrite c).thB = s.thB := rfl
@[simp] theorem State.ioWrite_typeHeld (c : Byte) (s : State) : (s.ioWrite c).typeHeld = s.typeHeld := rfl
@[simp] theorem State.ioWrite_resultHeld (c : Byte) (s : State) : (s.ioWrite c).resultHeld = s.resultHeld := rfl
@[simp] theorem State.ioWrite_thAHeld (c : Byte) (s : State) : (s.ioWrite c).thAHeld = s.thAHeld := rfl
@[simp] theorem State.ioWrite_thBHeld (c : Byte) (s : State) : (s.ioWrite c).thBHeld = s.thBHeld := rfl
@[simp] theorem State.ioWrite_trace (c : Byte) (s : State) : (s.ioWrite c).trace = s.trace ++ [.write c] := rfl
@[simp] theorem State.ioWrite_host (c : Byte) (s : State) : (s.ioWrite c).host = s.host := rfl
@[simp] theorem State.ioWrite_answers (c : Byte) (s : State) : (s.ioWrite c).answers = s.answers := rfl
@[simp] theorem State.ioWrite_fmtOut (c : Byte) (s : State) : (s.ioWrite c).fmtOut = s.fmtOut := rfl

/-! ### State.setTh -/

@[simp] theorem State.setTh_last (p : Port) (l : Level) (s : State) : (s.setTh p l).last = s.last := by cases p <;> rfl
@[simp] theorem State.setTh_run (p : Port) (l : Level) (s : State) : (s.setTh p l).run = s.run := by cases p <;> rfl
@[simp] theorem State.setTh_iter (p : Port) (l : Level) (s : State) : (s.setTh p l).iter = s.iter := by cases p <;> rfl
@[simp] theorem State.setTh_smp (p : Port) (l : Level) (s : State) : (s.setTh p l).smp = s.smp := by cases p <;> rfl
@[simp] theorem State.setTh_ds (p : Port) (l : Level) (s : State) : (s.setTh p l).ds = s.ds := by cases p <;> rfl
@[simp] theorem State.setTh_op (p : Port) (l : Level) (s : State) : (s.setTh p l).op = s.op := by cases p <;> rfl
@[simp] theorem State.setTh_port (p : Port) (l : Level) (s : State) : (s.setTh p l).port = s.port := by cases p <;> rfl
@[simp] theorem State.setTh_prog (p : Port) (l : Level) (s : State) : (s.setTh p l).prog = s.prog := by cases p <;> rfl
@[simp] theorem State.setTh_stepIx (p : Port) (l : Level) (s : State) : (s.setTh p l).stepIx = s.stepIx := by cases p <;> rfl
@[simp] theorem State.setTh_ph (p : Port) (l : Level) (s : State) : (s.setTh p l).ph = s.ph := by cases p <;> rfl
@[simp] theorem State.setTh_busy (p : Port) (l : Level) (s : State) : (s.setTh p l).busy = s.busy := by cases p <;> rfl
@[simp] theorem State.setTh_done (p : Port) (l : Level) (s : State) : (s.setTh p l).done = s.done := by cases p <;> rfl
@[simp] theorem State.setTh_devType (p : Port) (l : Level) (s : State) : (s.setTh p l).devType = s.devType := by cases p <;> rfl
@[simp] theorem State.setTh_ext (p : Port) (l : Level) (s : State) : (s.setTh p l).ext = s.ext := by cases p <;> rfl
@[simp] theorem State.setTh_result (p : Port) (l : Level) (s : State) : (s.setTh p l).result = s.result := by cases p <;> rfl
@[simp] theorem State.setTh_typeHeld (p : Port) (l : Level) (s : State) : (s.setTh p l).typeHeld = s.typeHeld := by cases p <;> rfl
@[simp] theorem State.setTh_resultHeld (p : Port) (l : Level) (s : State) : (s.setTh p l).resultHeld = s.resultHeld := by cases p <;> rfl
@[simp] theorem State.setTh_trace (p : Port) (l : Level) (s : State) : (s.setTh p l).trace = s.trace := by cases p <;> rfl
@[simp] theorem State.setTh_host (p : Port) (l : Level) (s : State) : (s.setTh p l).host = s.host := by cases p <;> rfl
@[simp] theorem State.setTh_answers (p : Port) (l : Level) (s : State) : (s.setTh p l).answers = s.answers := by cases p <;> rfl
@[simp] theorem State.setTh_fmtOut (p : Port) (l : Level) (s : State) : (s.setTh p l).fmtOut = s.fmtOut := by cases p <;> rfl

/-! ### State.strobe -/

@[simp] theorem State.strobe_last (p : Port) (l : Level) (s : State) : (s.strobe p l).last = s.last := by cases p <;> rfl
@[simp] theorem State.strobe_run (p : Port) (l : Level) (s : State) : (s.strobe p l).run = s.run := by cases p <;> rfl
@[simp] theorem State.strobe_iter (p : Port) (l : Level) (s : State) : (s.strobe p l).iter = s.iter := by cases p <;> rfl
@[simp] theorem State.strobe_smp (p : Port) (l : Level) (s : State) : (s.strobe p l).smp = s.smp := by cases p <;> rfl
@[simp] theorem State.strobe_ds (p : Port) (l : Level) (s : State) : (s.strobe p l).ds = s.ds := by cases p <;> rfl
@[simp] theorem State.strobe_op (p : Port) (l : Level) (s : State) : (s.strobe p l).op = s.op := by cases p <;> rfl
@[simp] theorem State.strobe_port (p : Port) (l : Level) (s : State) : (s.strobe p l).port = s.port := by cases p <;> rfl
@[simp] theorem State.strobe_prog (p : Port) (l : Level) (s : State) : (s.strobe p l).prog = s.prog := by cases p <;> rfl
@[simp] theorem State.strobe_stepIx (p : Port) (l : Level) (s : State) : (s.strobe p l).stepIx = s.stepIx := by cases p <;> rfl
@[simp] theorem State.strobe_ph (p : Port) (l : Level) (s : State) : (s.strobe p l).ph = s.ph := by cases p <;> rfl
@[simp] theorem State.strobe_busy (p : Port) (l : Level) (s : State) : (s.strobe p l).busy = s.busy := by cases p <;> rfl
@[simp] theorem State.strobe_done (p : Port) (l : Level) (s : State) : (s.strobe p l).done = s.done := by cases p <;> rfl
@[simp] theorem State.strobe_devType (p : Port) (l : Level) (s : State) : (s.strobe p l).devType = s.devType := by cases p <;> rfl
@[simp] theorem State.strobe_ext (p : Port) (l : Level) (s : State) : (s.strobe p l).ext = s.ext := by cases p <;> rfl
@[simp] theorem State.strobe_result (p : Port) (l : Level) (s : State) : (s.strobe p l).result = s.result := by cases p <;> rfl
@[simp] theorem State.strobe_typeHeld (p : Port) (l : Level) (s : State) : (s.strobe p l).typeHeld = s.typeHeld := by cases p <;> rfl
@[simp] theorem State.strobe_resultHeld (p : Port) (l : Level) (s : State) : (s.strobe p l).resultHeld = s.resultHeld := by cases p <;> rfl
@[simp] theorem State.strobe_trace (p : Port) (l : Level) (s : State) : (s.strobe p l).trace = s.trace ++ [.write (Config.code p l)] := by cases p <;> rfl
@[simp] theorem State.strobe_host (p : Port) (l : Level) (s : State) : (s.strobe p l).host = s.host := by cases p <;> rfl
@[simp] theorem State.strobe_answers (p : Port) (l : Level) (s : State) : (s.strobe p l).answers = s.answers := by cases p <;> rfl
@[simp] theorem State.strobe_fmtOut (p : Port) (l : Level) (s : State) : (s.strobe p l).fmtOut = s.fmtOut := by cases p <;> rfl

/-! ### State.startSample -/

@[simp] theorem State.startSample_last (s : State) : (s.startSample).last = s.last := rfl
@[simp] theorem State.startSample_run (s : State) : (s.startSample).run = 0 := rfl
@[simp] theorem State.startSample_iter (s : State) : (s.startSample).iter = 0 := rfl
@[simp] theorem State.startSample_smp (s : State) : (s.startSample).smp = s.smp := rfl
@[simp] theorem State.startSample_ds (s : State) : (s.startSample).ds = s.ds := rfl
@[simp] theorem State.startSample_op (s : State) : (s.startSample).op = s.op := rfl
@[simp] theorem State.startSample_port (s : State) : (s.startSample).port = s.port := rfl
@[simp] theorem State.startSample_prog (s : State) : (s.startSample).prog = s.prog := rfl
@[simp] theorem State.startSample_stepIx (s : State) : (s.startSample).stepIx = s.stepIx := rfl
@[simp] theorem State.startSample_ph (s : State) : (s.startSample).ph = s.ph := rfl
@[simp] theorem State.startSample_busy (s : State) : (s.startSample).busy = s.busy := rfl
@[simp] theorem State.startSample_done (s : State) : (s.startSample).done = s.done := rfl
@[simp] theorem State.startSample_devType (s : State) : (s.startSample).devType = s.devType := rfl
@[simp] theorem State.startSample_ext (s : State) : (s.startSample).ext = s.ext := rfl
@[simp] theorem State.startSample_result (s : State) : (s.startSample).result = s.result := rfl
@[simp] theorem State.startSample_thA (s : State) : (s.startSample).thA = s.thA := rfl
@[simp] theorem State.startSample_thB (s : State) : (s.startSample).thB = s.thB := rfl
@[simp] theorem State.startSample_typeHeld (s : State) : (s.startSample).typeHeld = s.typeHeld := rfl
@[simp] theorem State.startSample_resultHeld (s : State) : (s.startSample).resultHeld = s.resultHeld := rfl
@[simp] theorem State.startSample_thAHeld (s : State) : (s.startSample).thAHeld = s.thAHeld := rfl
@[simp] theorem State.startSample_thBHeld (s : State) : (s.startSample).thBHeld = s.thBHeld := rfl
@[simp] theorem State.startSample_trace (s : State) : (s.startSample).trace = s.trace := rfl
@[simp] theorem State.startSample_host (s : State) : (s.startSample).host = s.host := rfl
@[simp] theorem State.startSample_answers (s : State) : (s.startSample).answers = s.answers := rfl
@[simp] theorem State.startSample_fmtOut (s : State) : (s.startSample).fmtOut = s.fmtOut := rfl

/-! ### State.sampleRead -/

@[simp] theorem State.sampleRead_last (p : Port) (s : State) : (s.sampleRead p).last = s.nextByte p := rfl
@[simp] theorem State.sampleRead_run (p : Port) (s : State) : (s.sampleRead p).run = s.runAfter (s.nextByte p) := rfl
@[simp] theorem State.sampleRead_iter (p : Port) (s : State) : (s.sampleRead p).iter = s.iter + 1 := rfl
@[simp] theorem State.sampleRead_smp (p : Port) (s : State) : (s.sampleRead p).smp = s.smp := rfl
@[simp] theorem State.sampleRead_ds (p : Port) (s : State) : (s.sampleRead p).ds = s.ds := rfl
@[simp] theorem State.sampleRead_op (p : Port) (s : State) : (s.sampleRead p).op = s.op := rfl
@[simp] theorem State.sampleRead_port (p : Port) (s : State) : (s.sampleRead p).port = s.port := rfl
@[simp] theorem State.sampleRead_prog (p : Port) (s : State) : (s.sampleRead p).prog = s.prog := rfl
@[simp] theorem State.sampleRead_stepIx (p : Port) (s : State) : (s.sampleRead p).stepIx = s.stepIx := rfl
@[simp] theorem State.sampleRead_ph (p : Port) (s : State) : (s.sampleRead p).ph = s.ph := rfl
@[simp] theorem State.sampleRead_busy (p : Port) (s : State) : (s.sampleRead p).busy = s.busy := rfl
@[simp] theorem State.sampleRead_done (p : Port) (s : State) : (s.sampleRead p).done = s.done := rfl
@[simp] theorem State.sampleRead_devType (p : Port) (s : State) : (s.sampleRead p).devType = s.devType := rfl
@[simp] theorem State.sampleRead_ext (p : Port) (s : State) : (s.sampleRead p).ext = s.ext := rfl
@[simp] theorem State.sampleRead_result (p : Port) (s : State) : (s.sampleRead p).result = s.result := rfl
@[simp] theorem State.sampleRead_thA (p : Port) (s : State) : (s.sampleRead p).thA = s.thA := rfl
@[simp] theorem State.sampleRead_thB (p : Port) (s : State) : (s.sampleRead p).thB = s.thB := rfl
@[simp] theorem State.sampleRead_typeHeld (p : Port) (s : State) : (s.sampleRead p).typeHeld = s.typeHeld := rfl
@[simp] theorem State.sampleRead_resultHeld (p : Port) (s : State) : (s.sampleRead p).resultHeld = s.resultHeld := rfl
@[simp] theorem State.sampleRead_thAHeld (p : Port) (s : State) : (s.sampleRead p).thAHeld = s.thAHeld := rfl
@[simp] theorem State.sampleRead_thBHeld (p : Port) (s : State) : (s.sampleRead p).thBHeld = s.thBHeld := rfl
@[simp] theorem State.sampleRead_trace (p : Port) (s : State) : (s.sampleRead p).trace = s.trace ++ [.read p (s.nextByte p)] := rfl
@[simp] theorem State.sampleRead_host (p : Port) (s : State) : (s.sampleRead p).host = s.host := rfl
@[simp] theorem State.sampleRead_answers (p : Port) (s : State) : (s.sampleRead p).answers = s.answers.tail := rfl
@[simp] theorem State.sampleRead_fmtOut (p : Port) (s : State) : (s.sampleRead p).fmtOut = s.fmtOut := rfl

/-! ### State.deliver -/

@[simp] theorem State.deliver_last (d : Dest) (s : State) : (s.deliver d).last = s.last := by cases d <;> rfl
@[simp] theorem State.deliver_run (d : Dest) (s : State) : (s.deliver d).run = s.run := by cases d <;> rfl
@[simp] theorem State.deliver_iter (d : Dest) (s : State) : (s.deliver d).iter = s.iter := by cases d <;> rfl
@[simp] theorem State.deliver_op (d : Dest) (s : State) : (s.deliver d).op = s.op := by cases d <;> rfl
@[simp] theorem State.deliver_port (d : Dest) (s : State) : (s.deliver d).port = s.port := by cases d <;> rfl
@[simp] theorem State.deliver_prog (d : Dest) (s : State) : (s.deliver d).prog = s.prog := by cases d <;> rfl
@[simp] theorem State.deliver_stepIx (d : Dest) (s : State) : (s.deliver d).stepIx = s.stepIx := by cases d <;> rfl
@[simp] theorem State.deliver_ph (d : Dest) (s : State) : (s.deliver d).ph = s.ph := by cases d <;> rfl
@[simp] theorem State.deliver_busy (d : Dest) (s : State) : (s.deliver d).busy = s.busy := by cases d <;> rfl
@[simp] theorem State.deliver_done (d : Dest) (s : State) : (s.deliver d).done = s.done := by cases d <;> rfl
@[simp] theorem State.deliver_devType (d : Dest) (s : State) : (s.deliver d).devType = s.devType := by cases d <;> rfl
@[simp] theorem State.deliver_ext (d : Dest) (s : State) : (s.deliver d).ext = s.ext := by cases d <;> rfl
@[simp] theorem State.deliver_result (d : Dest) (s : State) : (s.deliver d).result = s.result := by cases d <;> rfl
@[simp] theorem State.deliver_thA (d : Dest) (s : State) : (s.deliver d).thA = s.thA := by cases d <;> rfl
@[simp] theorem State.deliver_thB (d : Dest) (s : State) : (s.deliver d).thB = s.thB := by cases d <;> rfl
@[simp] theorem State.deliver_typeHeld (d : Dest) (s : State) : (s.deliver d).typeHeld = s.typeHeld := by cases d <;> rfl
@[simp] theorem State.deliver_resultHeld (d : Dest) (s : State) : (s.deliver d).resultHeld = s.resultHeld := by cases d <;> rfl
@[simp] theorem State.deliver_thAHeld (d : Dest) (s : State) : (s.deliver d).thAHeld = s.thAHeld := by cases d <;> rfl
@[simp] theorem State.deliver_thBHeld (d : Dest) (s : State) : (s.deliver d).thBHeld = s.thBHeld := by cases d <;> rfl
@[simp] theorem State.deliver_trace (d : Dest) (s : State) : (s.deliver d).trace = s.trace := by cases d <;> rfl
@[simp] theorem State.deliver_host (d : Dest) (s : State) : (s.deliver d).host = s.host := by cases d <;> rfl
@[simp] theorem State.deliver_answers (d : Dest) (s : State) : (s.deliver d).answers = s.answers := by cases d <;> rfl
@[simp] theorem State.deliver_fmtOut (d : Dest) (s : State) : (s.deliver d).fmtOut = s.fmtOut := by cases d <;> rfl

/-! ### State.writeType -/

@[simp] theorem State.writeType_last (s : State) : (s.writeType).last = s.last := rfl
@[simp] theorem State.writeType_run (s : State) : (s.writeType).run = s.run := rfl
@[simp] theorem State.writeType_iter (s : State) : (s.writeType).iter = s.iter := rfl
@[simp] theorem State.writeType_smp (s : State) : (s.writeType).smp = s.smp := rfl
@[simp] theorem State.writeType_ds (s : State) : (s.writeType).ds = s.ds := rfl
@[simp] theorem State.writeType_op (s : State) : (s.writeType).op = s.op := rfl
@[simp] theorem State.writeType_port (s : State) : (s.writeType).port = s.port := rfl
@[simp] theorem State.writeType_prog (s : State) : (s.writeType).prog = s.prog := rfl
@[simp] theorem State.writeType_stepIx (s : State) : (s.writeType).stepIx = s.stepIx := rfl
@[simp] theorem State.writeType_ph (s : State) : (s.writeType).ph = s.ph := rfl
@[simp] theorem State.writeType_busy (s : State) : (s.writeType).busy = s.busy := rfl
@[simp] theorem State.writeType_done (s : State) : (s.writeType).done = s.done := rfl
@[simp] theorem State.writeType_devType (s : State) : (s.writeType).devType = (classify (lowNibble s.ds)).code := rfl
@[simp] theorem State.writeType_ext (s : State) : (s.writeType).ext = s.ext := rfl
@[simp] theorem State.writeType_result (s : State) : (s.writeType).result = s.result := rfl
@[simp] theorem State.writeType_thA (s : State) : (s.writeType).thA = s.thA := rfl
@[simp] theorem State.writeType_thB (s : State) : (s.writeType).thB = s.thB := rfl
@[simp] theorem State.writeType_typeHeld (s : State) : (s.writeType).typeHeld = true := rfl
@[simp] theorem State.writeType_resultHeld (s : State) : (s.writeType).resultHeld = s.resultHeld := rfl
@[simp] theorem State.writeType_thAHeld (s : State) : (s.writeType).thAHeld = s.thAHeld := rfl
@[simp] theorem State.writeType_thBHeld (s : State) : (s.writeType).thBHeld = s.thBHeld := rfl
@[simp] theorem State.writeType_trace (s : State) : (s.writeType).trace = s.trace := rfl
@[simp] theorem State.writeType_host (s : State) : (s.writeType).host = s.host := rfl
@[simp] theorem State.writeType_answers (s : State) : (s.writeType).answers = s.answers := rfl
@[simp] theorem State.writeType_fmtOut (s : State) : (s.writeType).fmtOut = s.fmtOut := rfl

/-! ### State.writeResult -/

@[simp] theorem State.writeResult_last (r : NormalizedState) (e : BitVec 3) (s : State) : (s.writeResult r e).last = s.last := rfl
@[simp] theorem State.writeResult_run (r : NormalizedState) (e : BitVec 3) (s : State) : (s.writeResult r e).run = s.run := rfl
@[simp] theorem State.writeResult_iter (r : NormalizedState) (e : BitVec 3) (s : State) : (s.writeResult r e).iter = s.iter := rfl
@[simp] theorem State.writeResult_smp (r : NormalizedState) (e : BitVec 3) (s : State) : (s.writeResult r e).smp = s.smp := rfl
@[simp] theorem State.writeResult_ds (r : NormalizedState) (e : BitVec 3) (s : State) : (s.writeResult r e).ds = s.ds := rfl
@[simp] theorem State.writeResult_op (r : NormalizedState) (e : BitVec 3) (s : State) : (s.writeResult r e).op = s.op := rfl
@[simp] theorem State.writeResult_port (r : NormalizedState) (e : BitVec 3) (s : State) : (s.writeResult r e).port = s.port := rfl
@[simp] theorem State.writeResult_prog (r : NormalizedState) (e : BitVec 3) (s : State) : (s.writeResult r e).prog = s.prog := rfl
@[simp] theorem State.writeResult_stepIx (r : NormalizedState) (e : BitVec 3) (s : State) : (s.writeResult r e).stepIx = s.stepIx := rfl
@[simp] theorem State.writeResult_ph (r : NormalizedState) (e : BitVec 3) (s : State) : (s.writeResult r e).ph = s.ph := rfl
@[simp] theorem State.writeResult_busy (r : NormalizedState) (e : BitVec 3) (s : State) : (s.writeResult r e).busy = s.busy := rfl
@[simp] theorem State.writeResult_done (r : NormalizedState) (e : BitVec 3) (s : State) : (s.writeResult r e).done = s.done := rfl
@[simp] theorem State.writeResult_devType (r : NormalizedState) (e : BitVec 3) (s : State) : (s.writeResult r e).devType = s.devType := rfl
@[simp] theorem State.writeResult_ext (r : NormalizedState) (e : BitVec 3) (s : State) : (s.writeResult r e).ext = e := rfl
@[simp] theorem State.writeResult_result (r : NormalizedState) (e : BitVec 3) (s : State) : (s.writeResult r e).result = r := rfl
@[simp] theorem State.writeResult_thA (r : NormalizedState) (e : BitVec 3) (s : State) : (s.writeResult r e).thA = s.thA := rfl
@[simp] theorem State.writeResult_thB (r : NormalizedState) (e : BitVec 3) (s : State) : (s.writeResult r e).thB = s.thB := rfl
@[simp] theorem State.writeResult_typeHeld (r : NormalizedState) (e : BitVec 3) (s : State) : (s.writeResult r e).typeHeld = s.typeHeld := rfl
@[simp] theorem State.writeResult_resultHeld (r : NormalizedState) (e : BitVec 3) (s : State) : (s.writeResult r e).resultHeld = true := rfl
@[simp] theorem State.writeResult_thAHeld (r : NormalizedState) (e : BitVec 3) (s : State) : (s.writeResult r e).thAHeld = s.thAHeld := rfl
@[simp] theorem State.writeResult_thBHeld (r : NormalizedState) (e : BitVec 3) (s : State) : (s.writeResult r e).thBHeld = s.thBHeld := rfl
@[simp] theorem State.writeResult_trace (r : NormalizedState) (e : BitVec 3) (s : State) : (s.writeResult r e).trace = s.trace := rfl
@[simp] theorem State.writeResult_host (r : NormalizedState) (e : BitVec 3) (s : State) : (s.writeResult r e).host = s.host := rfl
@[simp] theorem State.writeResult_answers (r : NormalizedState) (e : BitVec 3) (s : State) : (s.writeResult r e).answers = s.answers := rfl
@[simp] theorem State.writeResult_fmtOut (r : NormalizedState) (e : BitVec 3) (s : State) : (s.writeResult r e).fmtOut = s.fmtOut := rfl

/-! ### State.writeThree -/

@[simp] theorem State.writeThree_last (s : State) : (s.writeThree).last = s.last := rfl
@[simp] theorem State.writeThree_run (s : State) : (s.writeThree).run = s.run := rfl
@[simp] theorem State.writeThree_iter (s : State) : (s.writeThree).iter = s.iter := rfl
@[simp] theorem State.writeThree_smp (s : State) : (s.writeThree).smp = s.smp := rfl
@[simp] theorem State.writeThree_ds (s : State) : (s.writeThree).ds = s.ds := rfl
@[simp] theorem State.writeThree_op (s : State) : (s.writeThree).op = s.op := rfl
@[simp] theorem State.writeThree_port (s : State) : (s.writeThree).port = s.port := rfl
@[simp] theorem State.writeThree_prog (s : State) : (s.writeThree).prog = s.prog := rfl
@[simp] theorem State.writeThree_stepIx (s : State) : (s.writeThree).stepIx = s.stepIx := rfl
@[simp] theorem State.writeThree_ph (s : State) : (s.writeThree).ph = s.ph := rfl
@[simp] theorem State.writeThree_busy (s : State) : (s.writeThree).busy = s.busy := rfl
@[simp] theorem State.writeThree_done (s : State) : (s.writeThree).done = s.done := rfl
@[simp] theorem State.writeThree_devType (s : State) : (s.writeThree).devType = s.devType := rfl
@[simp] theorem State.writeThree_ext (s : State) : (s.writeThree).ext = 7 := rfl
@[simp] theorem State.writeThree_result (s : State) : (s.writeThree).result = dec3 s.smp[1] s.smp[0] := rfl
@[simp] theorem State.writeThree_thA (s : State) : (s.writeThree).thA = s.thA := rfl
@[simp] theorem State.writeThree_thB (s : State) : (s.writeThree).thB = s.thB := rfl
@[simp] theorem State.writeThree_typeHeld (s : State) : (s.writeThree).typeHeld = s.typeHeld := rfl
@[simp] theorem State.writeThree_resultHeld (s : State) : (s.writeThree).resultHeld = true := rfl
@[simp] theorem State.writeThree_thAHeld (s : State) : (s.writeThree).thAHeld = s.thAHeld := rfl
@[simp] theorem State.writeThree_thBHeld (s : State) : (s.writeThree).thBHeld = s.thBHeld := rfl
@[simp] theorem State.writeThree_trace (s : State) : (s.writeThree).trace = s.trace := rfl
@[simp] theorem State.writeThree_host (s : State) : (s.writeThree).host = s.host := rfl
@[simp] theorem State.writeThree_answers (s : State) : (s.writeThree).answers = s.answers := rfl
@[simp] theorem State.writeThree_fmtOut (s : State) : (s.writeThree).fmtOut = s.fmtOut := rfl

/-! ### State.writeSix -/

@[simp] theorem State.writeSix_last (s : State) : (s.writeSix).last = s.last := rfl
@[simp] theorem State.writeSix_run (s : State) : (s.writeSix).run = s.run := rfl
@[simp] theorem State.writeSix_iter (s : State) : (s.writeSix).iter = s.iter := rfl
@[simp] theorem State.writeSix_smp (s : State) : (s.writeSix).smp = s.smp := rfl
@[simp] theorem State.writeSix_ds (s : State) : (s.writeSix).ds = s.ds := rfl
@[simp] theorem State.writeSix_op (s : State) : (s.writeSix).op = s.op := rfl
@[simp] theorem State.writeSix_port (s : State) : (s.writeSix).port = s.port := rfl
@[simp] theorem State.writeSix_prog (s : State) : (s.writeSix).prog = s.prog := rfl
@[simp] theorem State.writeSix_stepIx (s : State) : (s.writeSix).stepIx = s.stepIx := rfl
@[simp] theorem State.writeSix_ph (s : State) : (s.writeSix).ph = s.ph := rfl
@[simp] theorem State.writeSix_busy (s : State) : (s.writeSix).busy = s.busy := rfl
@[simp] theorem State.writeSix_done (s : State) : (s.writeSix).done = s.done := rfl
@[simp] theorem State.writeSix_devType (s : State) : (s.writeSix).devType = s.devType := rfl
@[simp] theorem State.writeSix_ext (s : State) : (s.writeSix).ext = extCode (extSlot s.smp) := rfl
@[simp] theorem State.writeSix_result (s : State) : (s.writeSix).result = decodeSix s.smp := rfl
@[simp] theorem State.writeSix_thA (s : State) : (s.writeSix).thA = s.thA := rfl
@[simp] theorem State.writeSix_thB (s : State) : (s.writeSix).thB = s.thB := rfl
@[simp] theorem State.writeSix_typeHeld (s : State) : (s.writeSix).typeHeld = s.typeHeld := rfl
@[simp] theorem State.writeSix_resultHeld (s : State) : (s.writeSix).resultHeld = true := rfl
@[simp] theorem State.writeSix_thAHeld (s : State) : (s.writeSix).thAHeld = s.thAHeld := rfl
@[simp] theorem State.writeSix_thBHeld (s : State) : (s.writeSix).thBHeld = s.thBHeld := rfl
@[simp] theorem State.writeSix_trace (s : State) : (s.writeSix).trace = s.trace := rfl
@[simp] theorem State.writeSix_host (s : State) : (s.writeSix).host = s.host := rfl
@[simp] theorem State.writeSix_answers (s : State) : (s.writeSix).answers = s.answers := rfl
@[simp] theorem State.writeSix_fmtOut (s : State) : (s.writeSix).fmtOut = s.fmtOut := rfl

/-! ### State.complete -/

@[simp] theorem State.complete_last (s : State) : (s.complete).last = s.last := rfl
@[simp] theorem State.complete_run (s : State) : (s.complete).run = s.run := rfl
@[simp] theorem State.complete_iter (s : State) : (s.complete).iter = s.iter := rfl
@[simp] theorem State.complete_smp (s : State) : (s.complete).smp = s.smp := rfl
@[simp] theorem State.complete_ds (s : State) : (s.complete).ds = s.ds := rfl
@[simp] theorem State.complete_op (s : State) : (s.complete).op = s.op := rfl
@[simp] theorem State.complete_port (s : State) : (s.complete).port = s.port := rfl
@[simp] theorem State.complete_prog (s : State) : (s.complete).prog = s.prog := rfl
@[simp] theorem State.complete_stepIx (s : State) : (s.complete).stepIx = s.stepIx := rfl
@[simp] theorem State.complete_ph (s : State) : (s.complete).ph = s.ph := rfl
@[simp] theorem State.complete_busy (s : State) : (s.complete).busy = false := rfl
@[simp] theorem State.complete_done (s : State) : (s.complete).done = true := rfl
@[simp] theorem State.complete_devType (s : State) : (s.complete).devType = s.devType := rfl
@[simp] theorem State.complete_ext (s : State) : (s.complete).ext = s.ext := rfl
@[simp] theorem State.complete_result (s : State) : (s.complete).result = s.result := rfl
@[simp] theorem State.complete_thA (s : State) : (s.complete).thA = s.thA := rfl
@[simp] theorem State.complete_thB (s : State) : (s.complete).thB = s.thB := rfl
@[simp] theorem State.complete_typeHeld (s : State) : (s.complete).typeHeld = s.typeHeld := rfl
@[simp] theorem State.complete_resultHeld (s : State) : (s.complete).resultHeld = s.resultHeld := rfl
@[simp] theorem State.complete_thAHeld (s : State) : (s.complete).thAHeld = s.thAHeld := rfl
@[simp] theorem State.complete_thBHeld (s : State) : (s.complete).thBHeld = s.thBHeld := rfl
@[simp] theorem State.complete_trace (s : State) : (s.complete).trace = s.trace := rfl
@[simp] theorem State.complete_host (s : State) : (s.complete).host = s.host := rfl
@[simp] theorem State.complete_answers (s : State) : (s.complete).answers = s.answers := rfl
@[simp] theorem State.complete_fmtOut (s : State) : (s.complete).fmtOut = s.fmtOut := rfl

/-! ### State.enter -/

@[simp] theorem State.enter_last (g : Prog) (s : State) : (s.enter g).last = s.last := rfl
@[simp] theorem State.enter_run (g : Prog) (s : State) : (s.enter g).run = s.run := rfl
@[simp] theorem State.enter_iter (g : Prog) (s : State) : (s.enter g).iter = s.iter := rfl
@[simp] theorem State.enter_smp (g : Prog) (s : State) : (s.enter g).smp = s.smp := rfl
@[simp] theorem State.enter_ds (g : Prog) (s : State) : (s.enter g).ds = s.ds := rfl
@[simp] theorem State.enter_op (g : Prog) (s : State) : (s.enter g).op = s.op := rfl
@[simp] theorem State.enter_port (g : Prog) (s : State) : (s.enter g).port = s.port := rfl
@[simp] theorem State.enter_prog (g : Prog) (s : State) : (s.enter g).prog = g := rfl
@[simp] theorem State.enter_stepIx (g : Prog) (s : State) : (s.enter g).stepIx = 0 := rfl
@[simp] theorem State.enter_ph (g : Prog) (s : State) : (s.enter g).ph = .wr := rfl
@[simp] theorem State.enter_busy (g : Prog) (s : State) : (s.enter g).busy = s.busy := rfl
@[simp] theorem State.enter_done (g : Prog) (s : State) : (s.enter g).done = s.done := rfl
@[simp] theorem State.enter_devType (g : Prog) (s : State) : (s.enter g).devType = s.devType := rfl
@[simp] theorem State.enter_ext (g : Prog) (s : State) : (s.enter g).ext = s.ext := rfl
@[simp] theorem State.enter_result (g : Prog) (s : State) : (s.enter g).result = s.result := rfl
@[simp] theorem State.enter_thA (g : Prog) (s : State) : (s.enter g).thA = s.thA := rfl
@[simp] theorem State.enter_thB (g : Prog) (s : State) : (s.enter g).thB = s.thB := rfl
@[simp] theorem State.enter_typeHeld (g : Prog) (s : State) : (s.enter g).typeHeld = s.typeHeld := rfl
@[simp] theorem State.enter_resultHeld (g : Prog) (s : State) : (s.enter g).resultHeld = s.resultHeld := rfl
@[simp] theorem State.enter_thAHeld (g : Prog) (s : State) : (s.enter g).thAHeld = s.thAHeld := rfl
@[simp] theorem State.enter_thBHeld (g : Prog) (s : State) : (s.enter g).thBHeld = s.thBHeld := rfl
@[simp] theorem State.enter_trace (g : Prog) (s : State) : (s.enter g).trace = s.trace := rfl
@[simp] theorem State.enter_host (g : Prog) (s : State) : (s.enter g).host = s.host := rfl
@[simp] theorem State.enter_answers (g : Prog) (s : State) : (s.enter g).answers = s.answers := rfl
@[simp] theorem State.enter_fmtOut (g : Prog) (s : State) : (s.enter g).fmtOut = s.fmtOut := rfl

/-! ### State.afterStrobe -/

@[simp] theorem State.afterStrobe_last (s : State) : (s.afterStrobe).last = s.last := rfl
@[simp] theorem State.afterStrobe_run (s : State) : (s.afterStrobe).run = 0 := rfl
@[simp] theorem State.afterStrobe_iter (s : State) : (s.afterStrobe).iter = 0 := rfl
@[simp] theorem State.afterStrobe_smp (s : State) : (s.afterStrobe).smp = s.smp := rfl
@[simp] theorem State.afterStrobe_ds (s : State) : (s.afterStrobe).ds = s.ds := rfl
@[simp] theorem State.afterStrobe_op (s : State) : (s.afterStrobe).op = s.op := rfl
@[simp] theorem State.afterStrobe_port (s : State) : (s.afterStrobe).port = s.port := rfl
@[simp] theorem State.afterStrobe_prog (s : State) : (s.afterStrobe).prog = s.prog := rfl
@[simp] theorem State.afterStrobe_stepIx (s : State) : (s.afterStrobe).stepIx = s.stepIx := rfl
@[simp] theorem State.afterStrobe_ph (s : State) : (s.afterStrobe).ph = .rd := rfl
@[simp] theorem State.afterStrobe_busy (s : State) : (s.afterStrobe).busy = s.busy := rfl
@[simp] theorem State.afterStrobe_done (s : State) : (s.afterStrobe).done = s.done := rfl
@[simp] theorem State.afterStrobe_devType (s : State) : (s.afterStrobe).devType = s.devType := rfl
@[simp] theorem State.afterStrobe_ext (s : State) : (s.afterStrobe).ext = s.ext := rfl
@[simp] theorem State.afterStrobe_result (s : State) : (s.afterStrobe).result = s.result := rfl
@[simp] theorem State.afterStrobe_thA (s : State) : (s.afterStrobe).thA = s.thA := rfl
@[simp] theorem State.afterStrobe_thB (s : State) : (s.afterStrobe).thB = s.thB := rfl
@[simp] theorem State.afterStrobe_typeHeld (s : State) : (s.afterStrobe).typeHeld = s.typeHeld := rfl
@[simp] theorem State.afterStrobe_resultHeld (s : State) : (s.afterStrobe).resultHeld = s.resultHeld := rfl
@[simp] theorem State.afterStrobe_thAHeld (s : State) : (s.afterStrobe).thAHeld = s.thAHeld := rfl
@[simp] theorem State.afterStrobe_thBHeld (s : State) : (s.afterStrobe).thBHeld = s.thBHeld := rfl
@[simp] theorem State.afterStrobe_trace (s : State) : (s.afterStrobe).trace = s.trace := rfl
@[simp] theorem State.afterStrobe_host (s : State) : (s.afterStrobe).host = s.host := rfl
@[simp] theorem State.afterStrobe_answers (s : State) : (s.afterStrobe).answers = s.answers := rfl
@[simp] theorem State.afterStrobe_fmtOut (s : State) : (s.afterStrobe).fmtOut = s.fmtOut := rfl

/-! ### State.answerFormat -/

@[simp] theorem State.answerFormat_last (st : NormalizedState) (s : State) : (s.answerFormat st).last = s.last := rfl
@[simp] theorem State.answerFormat_run (st : NormalizedState) (s : State) : (s.answerFormat st).run = s.run := rfl
@[simp] theorem State.answerFormat_iter (st : NormalizedState) (s : State) : (s.answerFormat st).iter = s.iter := rfl
@[simp] theorem State.answerFormat_smp (st : NormalizedState) (s : State) : (s.answerFormat st).smp = s.smp := rfl
@[simp] theorem State.answerFormat_ds (st : NormalizedState) (s : State) : (s.answerFormat st).ds = s.ds := rfl
@[simp] theorem State.answerFormat_op (st : NormalizedState) (s : State) : (s.answerFormat st).op = s.op := rfl
@[simp] theorem State.answerFormat_port (st : NormalizedState) (s : State) : (s.answerFormat st).port = s.port := rfl
@[simp] theorem State.answerFormat_prog (st : NormalizedState) (s : State) : (s.answerFormat st).prog = s.prog := rfl
@[simp] theorem State.answerFormat_stepIx (st : NormalizedState) (s : State) : (s.answerFormat st).stepIx = s.stepIx := rfl
@[simp] theorem State.answerFormat_ph (st : NormalizedState) (s : State) : (s.answerFormat st).ph = s.ph := rfl
@[simp] theorem State.answerFormat_busy (st : NormalizedState) (s : State) : (s.answerFormat st).busy = s.busy := rfl
@[simp] theorem State.answerFormat_done (st : NormalizedState) (s : State) : (s.answerFormat st).done = s.done := rfl
@[simp] theorem State.answerFormat_devType (st : NormalizedState) (s : State) : (s.answerFormat st).devType = s.devType := rfl
@[simp] theorem State.answerFormat_ext (st : NormalizedState) (s : State) : (s.answerFormat st).ext = s.ext := rfl
@[simp] theorem State.answerFormat_result (st : NormalizedState) (s : State) : (s.answerFormat st).result = s.result := rfl
@[simp] theorem State.answerFormat_thA (st : NormalizedState) (s : State) : (s.answerFormat st).thA = s.thA := rfl
@[simp] theorem State.answerFormat_thB (st : NormalizedState) (s : State) : (s.answerFormat st).thB = s.thB := rfl
@[simp] theorem State.answerFormat_typeHeld (st : NormalizedState) (s : State) : (s.answerFormat st).typeHeld = s.typeHeld := rfl
@[simp] theorem State.answerFormat_resultHeld (st : NormalizedState) (s : State) : (s.answerFormat st).resultHeld = s.resultHeld := rfl
@[simp] theorem State.answerFormat_thAHeld (st : NormalizedState) (s : State) : (s.answerFormat st).thAHeld = s.thAHeld := rfl
@[simp] theorem State.answerFormat_thBHeld (st : NormalizedState) (s : State) : (s.answerFormat st).thBHeld = s.thBHeld := rfl
@[simp] theorem State.answerFormat_trace (st : NormalizedState) (s : State) : (s.answerFormat st).trace = s.trace := rfl
@[simp] theorem State.answerFormat_host (st : NormalizedState) (s : State) : (s.answerFormat st).host = s.host := rfl
@[simp] theorem State.answerFormat_answers (st : NormalizedState) (s : State) : (s.answerFormat st).answers = s.answers := rfl
@[simp] theorem State.answerFormat_fmtOut (st : NormalizedState) (s : State) : (s.answerFormat st).fmtOut = some (formatState st) := rfl

/-! ### State.resetEvent -/

@[simp] theorem State.resetEvent_last (s : State) : (s.resetEvent).last = State.reset.last := rfl
@[simp] theorem State.resetEvent_run (s : State) : (s.resetEvent).run = State.reset.run := rfl
@[simp] theorem State.resetEvent_iter (s : State) : (s.resetEvent).iter = State.reset.iter := rfl
@[simp] theorem State.resetEvent_smp (s : State) : (s.resetEvent).smp = State.reset.smp := rfl
@[simp] theorem State.resetEvent_ds (s : State) : (s.resetEvent).ds = State.reset.ds := rfl
@[simp] theorem State.resetEvent_op (s : State) : (s.resetEvent).op = State.reset.op := rfl
@[simp] theorem State.resetEvent_port (s : State) : (s.resetEvent).port = State.reset.port := rfl
@[simp] theorem State.resetEvent_prog (s : State) : (s.resetEvent).prog = State.reset.prog := rfl
@[simp] theorem State.resetEvent_stepIx (s : State) : (s.resetEvent).stepIx = State.reset.stepIx := rfl
@[simp] theorem State.resetEvent_ph (s : State) : (s.resetEvent).ph = State.reset.ph := rfl
@[simp] theorem State.resetEvent_busy (s : State) : (s.resetEvent).busy = State.reset.busy := rfl
@[simp] theorem State.resetEvent_done (s : State) : (s.resetEvent).done = State.reset.done := rfl
@[simp] theorem State.resetEvent_devType (s : State) : (s.resetEvent).devType = State.reset.devType := rfl
@[simp] theorem State.resetEvent_ext (s : State) : (s.resetEvent).ext = State.reset.ext := rfl
@[simp] theorem State.resetEvent_result (s : State) : (s.resetEvent).result = State.reset.result := rfl
@[simp] theorem State.resetEvent_thA (s : State) : (s.resetEvent).thA = s.thA := rfl
@[simp] theorem State.resetEvent_thB (s : State) : (s.resetEvent).thB = s.thB := rfl
@[simp] theorem State.resetEvent_typeHeld (s : State) : (s.resetEvent).typeHeld = State.reset.typeHeld := rfl
@[simp] theorem State.resetEvent_resultHeld (s : State) : (s.resetEvent).resultHeld = State.reset.resultHeld := rfl
@[simp] theorem State.resetEvent_thAHeld (s : State) : (s.resetEvent).thAHeld = State.reset.thAHeld := rfl
@[simp] theorem State.resetEvent_thBHeld (s : State) : (s.resetEvent).thBHeld = State.reset.thBHeld := rfl
@[simp] theorem State.resetEvent_trace (s : State) : (s.resetEvent).trace = s.trace := rfl
@[simp] theorem State.resetEvent_host (s : State) : (s.resetEvent).host = s.host := rfl
@[simp] theorem State.resetEvent_answers (s : State) : (s.resetEvent).answers = s.answers := rfl
@[simp] theorem State.resetEvent_fmtOut (s : State) : (s.resetEvent).fmtOut = s.fmtOut := rfl

/-! ### The strobe outputs by port -/

@[simp] theorem State.setTh_th (p q : Port) (l : Level) (s : State) :
    (s.setTh p l).th q = if q = p then l else s.th q := by cases p <;> cases q <;> rfl
@[simp] theorem State.setTh_thHeld (p q : Port) (l : Level) (s : State) :
    (s.setTh p l).thHeld q = (decide (q = p) || s.thHeld q) := by cases p <;> cases q <;> rfl
@[simp] theorem State.strobe_th (p q : Port) (l : Level) (s : State) :
    (s.strobe p l).th q = if q = p then l else s.th q := by cases p <;> cases q <;> rfl
@[simp] theorem State.strobe_thHeld (p q : Port) (l : Level) (s : State) :
    (s.strobe p l).thHeld q = (decide (q = p) || s.thHeld q) := by cases p <;> cases q <;> rfl

/-! ### The destinations of a finished SAMPLE -/

@[simp] theorem State.deliver_ds_ds (s : State) : (s.deliver .ds).ds = inv s.last := rfl
@[simp] theorem State.deliver_ds_smp (s : State) : (s.deliver .ds).smp = s.smp := rfl
@[simp] theorem State.deliver_smp_smp (i : Fin 6) (s : State) :
    (s.deliver (.smp i)).smp = s.smp.set i (inv s.last) := rfl
@[simp] theorem State.deliver_smp_ds (i : Fin 6) (s : State) : (s.deliver (.smp i)).ds = s.ds := rfl
@[simp] theorem State.deliver_discard (s : State) : s.deliver .discard = s := rfl

/-! ### Updates that drive no strobe output -/

@[simp] theorem State.log_th (q : Port) (e : BusEvent) (s : State) : (s.log e).th q = s.th q := by cases q <;> rfl
@[simp] theorem State.log_thHeld (q : Port) (e : BusEvent) (s : State) : (s.log e).thHeld q = s.thHeld q := by cases q <;> rfl
@[simp] theorem State.ioRead_th (q : Port) (p : Port) (s : State) : (s.ioRead p).th q = s.th q := by cases q <;> rfl
@[simp] theorem State.ioRead_thHeld (q : Port) (p : Port) (s : State) : (s.ioRead p).thHeld q = s.thHeld q := by cases q <;> rfl
@[simp] theorem State.ioWrite_th (q : Port) (c : Byte) (s : State) : (s.ioWrite c).th q = s.th q := by cases q <;> rfl
@[simp] theorem State.ioWrite_thHeld (q : Port) (c : Byte) (s : State) : (s.ioWrite c).thHeld q = s.thHeld q := by cases q <;> rfl
@[simp] theorem State.startSample_th (q : Port) (s : State) : (s.startSample).th q = s.th q := by cases q <;> rfl
@[simp] theorem State.startSample_thHeld (q : Port) (s : State) : (s.startSample).thHeld q = s.thHeld q := by cases q <;> rfl
@[simp] theorem State.sampleRead_th (q : Port) (p : Port) (s : State) : (s.sampleRead p).th q = s.th q := by cases q <;> rfl
@[simp] theorem State.sampleRead_thHeld (q : Port) (p : Port) (s : State) : (s.sampleRead p).thHeld q = s.thHeld q := by cases q <;> rfl
@[simp] theorem State.deliver_th (q : Port) (d : Dest) (s : State) : (s.deliver d).th q = s.th q := by cases q <;> cases d <;> rfl
@[simp] theorem State.deliver_thHeld (q : Port) (d : Dest) (s : State) : (s.deliver d).thHeld q = s.thHeld q := by cases q <;> cases d <;> rfl
@[simp] theorem State.writeType_th (q : Port) (s : State) : (s.writeType).th q = s.th q := by cases q <;> rfl
@[simp] theorem State.writeType_thHeld (q : Port) (s : State) : (s.writeType).thHeld q = s.thHeld q := by cases q <;> rfl
@[simp] theorem State.writeResult_th (q : Port) (r : NormalizedState) (e : BitVec 3) (s : State) : (s.writeResult r e).th q = s.th q := by cases q <;> rfl
@[simp] theorem State.writeResult_thHeld (q : Port) (r : NormalizedState) (e : BitVec 3) (s : State) : (s.writeResult r e).thHeld q = s.thHeld q := by cases q <;> rfl
@[simp] theorem State.writeThree_th (q : Port) (s : State) : (s.writeThree).th q = s.th q := by cases q <;> rfl
@[simp] theorem State.writeThree_thHeld (q : Port) (s : State) : (s.writeThree).thHeld q = s.thHeld q := by cases q <;> rfl
@[simp] theorem State.writeSix_th (q : Port) (s : State) : (s.writeSix).th q = s.th q := by cases q <;> rfl
@[simp] theorem State.writeSix_thHeld (q : Port) (s : State) : (s.writeSix).thHeld q = s.thHeld q := by cases q <;> rfl
@[simp] theorem State.complete_th (q : Port) (s : State) : (s.complete).th q = s.th q := by cases q <;> rfl
@[simp] theorem State.complete_thHeld (q : Port) (s : State) : (s.complete).thHeld q = s.thHeld q := by cases q <;> rfl
@[simp] theorem State.enter_th (q : Port) (g : Prog) (s : State) : (s.enter g).th q = s.th q := by cases q <;> rfl
@[simp] theorem State.enter_thHeld (q : Port) (g : Prog) (s : State) : (s.enter g).thHeld q = s.thHeld q := by cases q <;> rfl
@[simp] theorem State.afterStrobe_th (q : Port) (s : State) : (s.afterStrobe).th q = s.th q := by cases q <;> rfl
@[simp] theorem State.afterStrobe_thHeld (q : Port) (s : State) : (s.afterStrobe).thHeld q = s.thHeld q := by cases q <;> rfl
@[simp] theorem State.answerFormat_th (q : Port) (st : NormalizedState) (s : State) : (s.answerFormat st).th q = s.th q := by cases q <;> rfl
@[simp] theorem State.answerFormat_thHeld (q : Port) (st : NormalizedState) (s : State) : (s.answerFormat st).thHeld q = s.thHeld q := by cases q <;> rfl
@[simp] theorem State.resetEvent_th (q : Port) (s : State) : (s.resetEvent).th q = s.th q := by cases q <;> rfl

/-! ### What the environment answers next -/

theorem State.nextByte_congr (p : Port) (s t : State) (ha : s.answers = t.answers) (ht : s.trace = t.trace) :
    s.nextByte p = t.nextByte p := by
  simp only [State.nextByte, ha, ht]

theorem State.nextByte_cons (p : Port) (s : State) (v : Byte) (vs : List Byte) (h : s.answers = v :: vs) :
    s.nextByte p = v := by
  simp only [State.nextByte, h]

end Sys2Proof.Machine
end

