-- ==== Sys2Proof/Laws/Ops.lean ====
section
/-! SUPPORT. What each shared operation can do, said once: the host's move, acceptance, the end of a read, of an entry and of
a schedule. -/

namespace Sys2Proof.Machine

/-! ### The host's move -/

/-- Using up a move changes nothing but the host's list. -/
theorem State.takeMove_eq (s : State) : s.takeMove = { s with host := s.takeMove.host } := by
  unfold State.takeMove
  split
  · split <;> rfl
  · rfl

@[simp] theorem State.takeMove_last (s : State) : s.takeMove.last = s.last := by rw [s.takeMove_eq]
@[simp] theorem State.takeMove_run (s : State) : s.takeMove.run = s.run := by rw [s.takeMove_eq]
@[simp] theorem State.takeMove_iter (s : State) : s.takeMove.iter = s.iter := by rw [s.takeMove_eq]
@[simp] theorem State.takeMove_smp (s : State) : s.takeMove.smp = s.smp := by rw [s.takeMove_eq]
@[simp] theorem State.takeMove_ds (s : State) : s.takeMove.ds = s.ds := by rw [s.takeMove_eq]
@[simp] theorem State.takeMove_op (s : State) : s.takeMove.op = s.op := by rw [s.takeMove_eq]
@[simp] theorem State.takeMove_port (s : State) : s.takeMove.port = s.port := by rw [s.takeMove_eq]
@[simp] theorem State.takeMove_prog (s : State) : s.takeMove.prog = s.prog := by rw [s.takeMove_eq]
@[simp] theorem State.takeMove_stepIx (s : State) : s.takeMove.stepIx = s.stepIx := by rw [s.takeMove_eq]
@[simp] theorem State.takeMove_ph (s : State) : s.takeMove.ph = s.ph := by rw [s.takeMove_eq]
@[simp] theorem State.takeMove_busy (s : State) : s.takeMove.busy = s.busy := by rw [s.takeMove_eq]
@[simp] theorem State.takeMove_done (s : State) : s.takeMove.done = s.done := by rw [s.takeMove_eq]
@[simp] theorem State.takeMove_devType (s : State) : s.takeMove.devType = s.devType := by rw [s.takeMove_eq]
@[simp] theorem State.takeMove_ext (s : State) : s.takeMove.ext = s.ext := by rw [s.takeMove_eq]
@[simp] theorem State.takeMove_result (s : State) : s.takeMove.result = s.result := by rw [s.takeMove_eq]
@[simp] theorem State.takeMove_thA (s : State) : s.takeMove.thA = s.thA := by rw [s.takeMove_eq]
@[simp] theorem State.takeMove_thB (s : State) : s.takeMove.thB = s.thB := by rw [s.takeMove_eq]
@[simp] theorem State.takeMove_typeHeld (s : State) : s.takeMove.typeHeld = s.typeHeld := by rw [s.takeMove_eq]
@[simp] theorem State.takeMove_resultHeld (s : State) : s.takeMove.resultHeld = s.resultHeld := by rw [s.takeMove_eq]
@[simp] theorem State.takeMove_thAHeld (s : State) : s.takeMove.thAHeld = s.thAHeld := by rw [s.takeMove_eq]
@[simp] theorem State.takeMove_thBHeld (s : State) : s.takeMove.thBHeld = s.thBHeld := by rw [s.takeMove_eq]
@[simp] theorem State.takeMove_trace (s : State) : s.takeMove.trace = s.trace := by rw [s.takeMove_eq]
@[simp] theorem State.takeMove_answers (s : State) : s.takeMove.answers = s.answers := by rw [s.takeMove_eq]
@[simp] theorem State.takeMove_fmtOut (s : State) : s.takeMove.fmtOut = s.fmtOut := by rw [s.takeMove_eq]
@[simp] theorem State.takeMove_th (q : Port) (s : State) : s.takeMove.th q = s.th q := by cases q <;> simp [State.th]
@[simp] theorem State.takeMove_thHeld (q : Port) (s : State) : s.takeMove.thHeld q = s.thHeld q := by
  cases q <;> simp [State.thHeld]

theorem State.takeMove_nil (s : State) (h : s.host = []) : s.takeMove = s := by
  cases s; simp only at h; subst h; rfl

theorem State.takeMove_idle (s : State) (h : s.busy = false) : s.takeMove = { s with host := s.host.tail } := by
  cases s with
  | mk =>
    simp only at h
    subst h
    unfold State.takeMove
    split
    · rename_i heq; simp only at heq; subst heq; rfl
    · rfl

/-- The moves left after a step are among the moves before it. -/
theorem State.takeMove_host_subset (s : State) (m : HostMove) (h : m ∈ s.takeMove.host) : m ∈ s.host := by
  unfold State.takeMove at h
  split at h
  · split at h
    · exact h
    · rename_i heq _; rw [heq]; exact List.mem_cons_of_mem _ h
  · exact List.mem_of_mem_tail h

/-- The host's side of a busy step changes nothing but the host's list and the formatter's output. -/
theorem State.hostTurn_eq (s : State) : s.hostTurn = { s with host := s.takeMove.host, fmtOut := s.hostTurn.fmtOut } := by
  unfold State.hostTurn
  rw [s.takeMove_eq]
  split <;> rfl

@[simp] theorem State.hostTurn_last (s : State) : s.hostTurn.last = s.last := by rw [s.hostTurn_eq]
@[simp] theorem State.hostTurn_run (s : State) : s.hostTurn.run = s.run := by rw [s.hostTurn_eq]
@[simp] theorem State.hostTurn_iter (s : State) : s.hostTurn.iter = s.iter := by rw [s.hostTurn_eq]
@[simp] theorem State.hostTurn_smp (s : State) : s.hostTurn.smp = s.smp := by rw [s.hostTurn_eq]
@[simp] theorem State.hostTurn_ds (s : State) : s.hostTurn.ds = s.ds := by rw [s.hostTurn_eq]
@[simp] theorem State.hostTurn_op (s : State) : s.hostTurn.op = s.op := by rw [s.hostTurn_eq]
@[simp] theorem State.hostTurn_port (s : State) : s.hostTurn.port = s.port := by rw [s.hostTurn_eq]
@[simp] theorem State.hostTurn_prog (s : State) : s.hostTurn.prog = s.prog := by rw [s.hostTurn_eq]
@[simp] theorem State.hostTurn_stepIx (s : State) : s.hostTurn.stepIx = s.stepIx := by rw [s.hostTurn_eq]
@[simp] theorem State.hostTurn_ph (s : State) : s.hostTurn.ph = s.ph := by rw [s.hostTurn_eq]
@[simp] theorem State.hostTurn_busy (s : State) : s.hostTurn.busy = s.busy := by rw [s.hostTurn_eq]
@[simp] theorem State.hostTurn_done (s : State) : s.hostTurn.done = s.done := by rw [s.hostTurn_eq]
@[simp] theorem State.hostTurn_devType (s : State) : s.hostTurn.devType = s.devType := by rw [s.hostTurn_eq]
@[simp] theorem State.hostTurn_ext (s : State) : s.hostTurn.ext = s.ext := by rw [s.hostTurn_eq]
@[simp] theorem State.hostTurn_result (s : State) : s.hostTurn.result = s.result := by rw [s.hostTurn_eq]
@[simp] theorem State.hostTurn_thA (s : State) : s.hostTurn.thA = s.thA := by rw [s.hostTurn_eq]
@[simp] theorem State.hostTurn_thB (s : State) : s.hostTurn.thB = s.thB := by rw [s.hostTurn_eq]
@[simp] theorem State.hostTurn_typeHeld (s : State) : s.hostTurn.typeHeld = s.typeHeld := by rw [s.hostTurn_eq]
@[simp] theorem State.hostTurn_resultHeld (s : State) : s.hostTurn.resultHeld = s.resultHeld := by rw [s.hostTurn_eq]
@[simp] theorem State.hostTurn_thAHeld (s : State) : s.hostTurn.thAHeld = s.thAHeld := by rw [s.hostTurn_eq]
@[simp] theorem State.hostTurn_thBHeld (s : State) : s.hostTurn.thBHeld = s.thBHeld := by rw [s.hostTurn_eq]
@[simp] theorem State.hostTurn_trace (s : State) : s.hostTurn.trace = s.trace := by rw [s.hostTurn_eq]
@[simp] theorem State.hostTurn_answers (s : State) : s.hostTurn.answers = s.answers := by rw [s.hostTurn_eq]
@[simp] theorem State.hostTurn_th (q : Port) (s : State) : s.hostTurn.th q = s.th q := by cases q <;> simp [State.th]
@[simp] theorem State.hostTurn_thHeld (q : Port) (s : State) : s.hostTurn.thHeld q = s.thHeld q := by
  cases q <;> simp [State.thHeld]
@[simp] theorem State.hostTurn_host (s : State) : s.hostTurn.host = s.takeMove.host := by rw [s.hostTurn_eq]

theorem State.hostTurn_format (s : State) (st : NormalizedState) (h : s.move = .format st) :
    s.hostTurn = s.takeMove.answerFormat st := by
  simp only [State.hostTurn, h]

theorem State.hostTurn_other (s : State) (h : ∀ st, s.move ≠ .format st) : s.hostTurn = s.takeMove := by
  unfold State.hostTurn
  split
  · rename_i st hm; exact absurd hm (h st)
  · rfl

theorem State.hostTurn_nil (s : State) (h : s.host = []) : s.hostTurn = s := by
  rw [State.hostTurn_other s (by simp [State.move, h]), State.takeMove_nil s h]

/-! ### Acceptance -/

theorem State.accept_busy (o : Op) (p : Port) (s : State) (h : s.busy = true) : s.accept o p = s := by
  simp [State.accept, h]

theorem State.accept_idle (o : Op) (p : Port) (s : State) (h : s.busy = false) :
    s.accept o p = { s with
      busy := true, done := false, port := p, op := o, prog := o.firstProg, stepIx := 0, ph := .wr } := by
  simp [State.accept, State.enter, h]

/-! ### The end of a read, of an entry and of a schedule -/

theorem State.sampleDone_iff (s : State) : s.sampleDone = true ↔ s.run = 3 ∨ s.iter = 64 := by
  simp [State.sampleDone, Config.stableReads, Config.stableMaxIters]

theorem State.afterRead_going (s : State) (h : s.sampleDone = false) : s.afterRead = s := by
  simp [State.afterRead, h]

theorem State.afterRead_done (s : State) (h : s.sampleDone = true) :
    s.afterRead = (s.deliver (entry s.prog s.stepIx).2).nextEntry := by
  simp [State.afterRead, h]

theorem State.nextEntry_within (s : State) (h : s.stepIx < lastIx s.prog) :
    s.nextEntry = { s with stepIx := s.stepIx + 1, ph := .wr } := by
  simp [State.nextEntry, h]

theorem State.nextEntry_last (s : State) (h : ¬ s.stepIx < lastIx s.prog) : s.nextEntry = s.endOfSchedule := by
  simp [State.nextEntry, h]

theorem State.endOfSchedule_read (s : State) (hp : s.prog = .det) (ho : s.op = .read) :
    s.endOfSchedule = s.writeType.enter s.writeType.decodeProg := by
  simp [State.endOfSchedule, hp, ho]

theorem State.endOfSchedule_det (s : State) (hp : s.prog = .det) (ho : s.op ≠ .read) :
    s.endOfSchedule = s.writeType.complete := by
  cases h : s.op <;> simp_all [State.endOfSchedule]

theorem State.endOfSchedule_r3 (s : State) (hp : s.prog = .r3) : s.endOfSchedule = s.writeThree.complete := by
  simp [State.endOfSchedule, hp]

theorem State.endOfSchedule_r6 (s : State) (hp : s.prog = .r6) : s.endOfSchedule = s.writeSix.complete := by
  simp [State.endOfSchedule, hp]

/-! ### What the sequencer never looks at -/

/-- The state with other inputs and outputs of the host, which no bus access and no end of a SAMPLE depends on. -/
def State.withHost (hs : List HostMove) (out : Option (List Char)) (s : State) : State := { s with host := hs, fmtOut := out }

theorem State.strobe_withHost (hs : List HostMove) (out : Option (List Char)) (p : Port) (l : Level) (s : State) :
    (s.withHost hs out).strobe p l = (s.strobe p l).withHost hs out := by cases p <;> rfl

theorem State.sampleRead_withHost (hs : List HostMove) (out : Option (List Char)) (p : Port) (s : State) :
    (s.withHost hs out).sampleRead p = (s.sampleRead p).withHost hs out := rfl

theorem State.deliver_withHost (hs : List HostMove) (out : Option (List Char)) (d : Dest) (s : State) :
    (s.withHost hs out).deliver d = (s.deliver d).withHost hs out := by cases d <;> rfl

theorem State.endOfSchedule_withHost (hs : List HostMove) (out : Option (List Char)) (s : State) :
    (s.withHost hs out).endOfSchedule = s.endOfSchedule.withHost hs out := by
  cases s with
  | mk _ _ _ _ _ op _ prog => cases prog <;> cases op <;> rfl

theorem State.nextEntry_withHost (hs : List HostMove) (out : Option (List Char)) (s : State) :
    (s.withHost hs out).nextEntry = s.nextEntry.withHost hs out := by
  by_cases h : s.stepIx < lastIx s.prog
  · rw [State.nextEntry_within s h, State.nextEntry_within (s.withHost hs out) h]; rfl
  · rw [State.nextEntry_last s h, State.nextEntry_last (s.withHost hs out) h, State.endOfSchedule_withHost]

theorem State.afterRead_withHost (hs : List HostMove) (out : Option (List Char)) (s : State) :
    (s.withHost hs out).afterRead = s.afterRead.withHost hs out := by
  have hd : (s.withHost hs out).sampleDone = s.sampleDone := rfl
  cases h : s.sampleDone with
  | true =>
    rw [State.afterRead_done s h, State.afterRead_done _ (hd.trans h), State.deliver_withHost, State.nextEntry_withHost]
    rfl
  | false => rw [State.afterRead_going s h, State.afterRead_going _ (hd.trans h)]

/-! ### The words of the host -/

/-- An idle block runs a presented word as a host command, as the reserved word, or not at all. -/
theorem hostInstr_cases (w : OpWord) :
    (∃ o p, hostInstr w = some (Op.command o p)) ∨ (∃ p, hostInstr w = some (.reserved p)) ∨ hostInstr w = none := by
  unfold hostInstr
  cases h : decodeWord w with
  | detect p => exact .inl ⟨.detect, p, rfl⟩
  | read3 p => exact .inl ⟨.read3, p, rfl⟩
  | read6 p => exact .inl ⟨.read6, p, rfl⟩
  | read p => exact .inl ⟨.read, p, rfl⟩
  | setStrobe p l => exact .inr (.inr rfl)
  | sample p => exact .inr (.inr rfl)
  | format st => revert h; simp only [decodeWord]; split <;> simp
  | reserved p => exact .inr (.inl ⟨p, rfl⟩)

end Sys2Proof.Machine
end

