-- ==== Sys2Proof/Laws/PerInstr.lean ====
section
/-! SUPPORT. Statements made per instruction. The family HostWords: an operation is a host command exactly when it has an
operation word whose bit 2 is 0 (30_encoding.md R51, 47_sequencer.md R82, R84). -/

namespace Sys2Proof.Laws.HostWords

/-- The host may issue an operation exactly when its word is one of `p000` to `p011`. -/
def Statement (i : Instr) : Prop := i.HostCommand ↔ ∃ w, encodeWord i = some w ∧ w.getLsbD 2 = false

/-- An operation with a word whose bit 2 is 0 is a host command. -/
theorem of_word (i : Instr) (w : OpWord) (hw : encodeWord i = some w) (hb : w.getLsbD 2 = false) (hc : i.HostCommand) :
    Statement i := ⟨fun _ => ⟨w, hw, hb⟩, fun _ => hc⟩

/-- An operation that is no host command has no such word. -/
theorem of_not (i : Instr) (hc : i.isHostCommand = false) (hw : ∀ w, encodeWord i = some w → w.getLsbD 2 = true) :
    Statement i :=
  ⟨fun h => absurd (hc.symm.trans h) Bool.false_ne_true,
    fun ⟨w, h, hb⟩ => absurd ((hw w h).symm.trans hb) (by decide)⟩

theorem detect (p : Port) : Statement (.detect p) := of_word _ _ rfl (by cases p <;> rfl) rfl
theorem read3 (p : Port) : Statement (.read3 p) := of_word _ _ rfl (by cases p <;> rfl) rfl
theorem read6 (p : Port) : Statement (.read6 p) := of_word _ _ rfl (by cases p <;> rfl) rfl
theorem read (p : Port) : Statement (.read p) := of_word _ _ rfl (by cases p <;> rfl) rfl
theorem setStrobe (p : Port) (l : Level) : Statement (.setStrobe p l) :=
  of_not _ rfl fun w h => by cases p <;> cases l <;> cases h <;> rfl
theorem sample (p : Port) : Statement (.sample p) := of_not _ rfl fun w h => by cases p <;> cases h <;> rfl
theorem format (st : NormalizedState) : Statement (.format st) := of_not _ rfl fun _ h => by cases h
theorem reserved (p : Port) : Statement (.reserved p) := of_not _ rfl fun w h => by cases p <;> cases h <;> rfl

end Sys2Proof.Laws.HostWords
end

