-- ==== Sys2Proof/Laws/Step.lean ====
section
/-! SUPPORT. What one step can do, said once, and runs of steps. -/

namespace Sys2Proof.Machine

/-! ### The meanings -/

@[simp] theorem exec_detect (p : Port) (s : State) : exec (.detect p) s = .next (s.accept .detect p) := rfl
@[simp] theorem exec_read3 (p : Port) (s : State) : exec (.read3 p) s = .next (s.accept .read3 p) := rfl
@[simp] theorem exec_read6 (p : Port) (s : State) : exec (.read6 p) s = .next (s.accept .read6 p) := rfl
@[simp] theorem exec_read (p : Port) (s : State) : exec (.read p) s = .next (s.accept .read p) := rfl
@[simp] theorem exec_setStrobe (p : Port) (l : Level) (s : State) :
    exec (.setStrobe p l) s = .next (s.strobe p l) := rfl
@[simp] theorem exec_sample (p : Port) (s : State) : exec (.sample p) s = .next (s.sampleRead p) := rfl
@[simp] theorem exec_format (st : NormalizedState) (s : State) :
    exec (.format st) s = .next (s.answerFormat st) := rfl
@[simp] theorem exec_reserved (p : Port) (s : State) : exec (.reserved p) s = .next s := rfl

theorem exec_command (o : Op) (p : Port) (s : State) : exec (o.command p) s = .next (s.accept o p) := by
  cases o <;> rfl

/-! ### The step, by what the host does -/

theorem step_reset (s : State) (h : s.move = .reset) : step s = .next s.takeMove.resetEvent := by
  simp [step, State.activity, h]

/-- A busy block makes its next bus access, and the host's side of the step goes on beside it. -/
theorem step_busy (s : State) (hb : s.busy = true) (hq : s.move.isQuiet = true) :
    step s = .next (match s.ph with
      | .wr => (s.hostTurn.strobe s.port (entry s.prog s.stepIx).1).afterStrobe
      | .rd => (s.hostTurn.sampleRead s.port).afterRead) := by
  have ha : s.activity = .microOp s.microOp := by
    unfold State.activity
    cases hm : s.move <;> simp_all [HostMove.isQuiet]
  cases hp : s.ph <;> simp [step, ha, State.microOp, hp, advance, State.afterMicroOp]

theorem step_busy_wr (s : State) (hb : s.busy = true) (hq : s.move.isQuiet = true) (hp : s.ph = .wr) :
    step s = .next (s.hostTurn.strobe s.port (entry s.prog s.stepIx).1).afterStrobe := by
  simp [step_busy s hb hq, hp]

theorem step_busy_rd (s : State) (hb : s.busy = true) (hq : s.move.isQuiet = true) (hp : s.ph = .rd) :
    step s = .next (s.hostTurn.sampleRead s.port).afterRead := by
  simp [step_busy s hb hq, hp]

/-- What the host does beside a busy block's step, short of a reset, changes nothing of the block's: the step is the one of
a host that does nothing, but for the host's list and the formatter's output. -/
theorem step_busy_withHost (s : State) (hb : s.busy = true) (hq : s.move.isQuiet = true) :
    ∃ t, step (s.withHost [] s.fmtOut) = .next t ∧ step s = .next (t.withHost s.takeMove.host s.hostTurn.fmtOut) := by
  have hs : s.hostTurn = (s.withHost [] s.fmtOut).withHost s.takeMove.host s.hostTurn.fmtOut := s.hostTurn_eq
  have hn : (s.withHost [] s.fmtOut).hostTurn = s.withHost [] s.fmtOut := State.hostTurn_nil _ rfl
  refine ⟨_, step_busy (s.withHost [] s.fmtOut) hb rfl, ?_⟩
  rw [step_busy s hb hq, hn]
  generalize s.takeMove.host = hs', s.hostTurn.fmtOut = out at hs
  have hp : (s.withHost [] s.fmtOut).ph = s.ph := rfl
  have hport : (s.withHost [] s.fmtOut).port = s.port := rfl
  have he : entry (s.withHost [] s.fmtOut).prog (s.withHost [] s.fmtOut).stepIx = entry s.prog s.stepIx := rfl
  rw [hp, hport, he, hs]
  generalize s.withHost [] s.fmtOut = u
  cases s.ph with
  | wr => rw [State.strobe_withHost]; rfl
  | rd => rw [State.sampleRead_withHost, State.afterRead_withHost]

/-- An idle block runs the operation of the host's move. -/
theorem step_idle_some (s : State) (i : Instr) (hb : s.busy = false) (hi : s.move.instr = some i) :
    step s = exec i s.takeMove := by
  have ha : s.activity = .hostOp i := by
    unfold State.activity
    cases hm : s.move <;> rw [hm] at hi <;> first | (simp only [hb, hi]; rfl) | cases hi
  simp only [step, ha]

/-- An idle block to which nothing it runs is presented keeps every register. -/
theorem step_idle_none (s : State) (hb : s.busy = false) (hq : s.move.isQuiet = true) (hi : s.move.instr = none) :
    step s = .next s.takeMove := by
  have ha : s.activity = .idle := by
    unfold State.activity
    cases hm : s.move <;> simp_all [HostMove.isQuiet]
  simp only [step, ha]

theorem step_format (s : State) (st : NormalizedState) (hb : s.busy = false) (h : s.move = .format st) :
    step s = .next (s.takeMove.answerFormat st) :=
  step_idle_some s (.format st) hb (by rw [h]; rfl)

/-- An idle block accepts a command, answers a call of the formatter, or does nothing. -/
theorem step_idle (s : State) (hb : s.busy = false) (hq : s.move.isQuiet = true) :
    (∃ o p, step s = .next (s.takeMove.accept o p)) ∨
    (∃ st, s.move = .format st ∧ step s = .next (s.takeMove.answerFormat st)) ∨ step s = .next s.takeMove := by
  by_cases hf : ∃ st, s.move = .format st
  · obtain ⟨st, hf⟩ := hf
    exact .inr (.inl ⟨st, hf, step_format s st hb hf⟩)
  have hword : s.move.instr = s.move.word.bind hostInstr := by
    cases hm : s.move with
    | format st => exact absurd ⟨st, hm⟩ hf
    | _ => rfl
  cases hw : s.move.word with
  | none => exact .inr (.inr (step_idle_none s hb hq (by rw [hword, hw]; rfl)))
  | some w =>
    have hi : s.move.instr = hostInstr w := by rw [hword, hw]; rfl
    rcases hostInstr_cases w with ⟨o, p, h⟩ | ⟨p, h⟩ | h
    · exact .inl ⟨o, p, by rw [step_idle_some s _ hb (hi.trans h), exec_command]⟩
    · exact .inr (.inr (by rw [step_idle_some s _ hb (hi.trans h), exec_reserved]))
    · exact .inr (.inr (step_idle_none s hb hq (hi.trans h)))

/-- What a step can be: a reset; of a busy block a strobe write or a read; of an idle one an acceptance, a call of the
formatter, or nothing. -/
theorem step_cases (s t : State) (h : step s = .next t) :
    (s.move = .reset ∧ t = s.takeMove.resetEvent) ∨
    (s.move.isQuiet = true ∧ s.busy = true ∧ s.ph = .wr ∧
      t = (s.hostTurn.strobe s.port (entry s.prog s.stepIx).1).afterStrobe) ∨
    (s.move.isQuiet = true ∧ s.busy = true ∧ s.ph = .rd ∧ t = (s.hostTurn.sampleRead s.port).afterRead) ∨
    (s.move.isQuiet = true ∧ s.busy = false ∧ ((∃ o p, t = s.takeMove.accept o p) ∨
      (∃ st, s.move = .format st ∧ t = s.takeMove.answerFormat st) ∨ t = s.takeMove)) := by
  by_cases hr : s.move = .reset
  · rw [step_reset s hr] at h; cases h; exact .inl ⟨hr, rfl⟩
  have hq : s.move.isQuiet = true := by
    cases hm : s.move <;> simp_all [HostMove.isQuiet]
  right
  cases hb : s.busy with
  | true =>
    cases hp : s.ph with
    | wr => rw [step_busy_wr s hb hq hp] at h; cases h; exact .inl ⟨hq, rfl, rfl, rfl⟩
    | rd => rw [step_busy_rd s hb hq hp] at h; cases h; exact .inr (.inl ⟨hq, rfl, rfl, rfl⟩)
  | false =>
    refine .inr (.inr ⟨hq, rfl, ?_⟩)
    rcases step_idle s hb hq with ⟨o, p, hs⟩ | ⟨st, hm, hs⟩ | hs <;> rw [hs] at h <;> cases h
    · exact .inl ⟨o, p, rfl⟩
    · exact .inr (.inl ⟨st, hm, rfl⟩)
    · exact .inr (.inr rfl)

/-! ### Runs -/

theorem run_add (m n : Nat) (s t : State) (h : run m s = .next t) : run (m + n) s = run n t := by
  induction m generalizing s with
  | zero => simp only [run] at h; cases h; simp
  | succ m ih =>
    rw [Nat.succ_add]
    simp only [run] at h ⊢
    split at h
    · rename_i heq; simp only [ih _ h]
    · cases h
    · cases h

theorem run_succ (n : Nat) (s t : State) (h : step s = .next t) : run (n + 1) s = run n t := by
  simp only [run, h]

/-- `run` is the host's own run of the model. -/
theorem run_eq_core_run (n : Nat) (s : State) : run n s = Host.Core.run core n s := by
  induction n generalizing s with
  | zero => simp only [run, Host.Core.run]; rfl
  | succ n ih =>
    have hc : core.step s = step s := rfl
    simp only [run, Host.Core.run, hc]
    cases step s with
    | next t => exact ih t
    | fault r => rfl
    | refused r => rfl

end Sys2Proof.Machine
end

