-- ==== Sys2Proof/Laws/Sample.lean ====
section
/-! SUPPORT. The SAMPLE loop: what it leaves alone, how many reads it makes, and the steps that run it. -/

namespace Sys2Proof.Machine

/-! ### What a SAMPLE leaves alone -/

theorem State.sampleLoop_eq (p : Port) (n : Nat) (s : State) :
    s.sampleLoop p n = { s with
      last := (s.sampleLoop p n).last, run := (s.sampleLoop p n).run, iter := (s.sampleLoop p n).iter
      trace := (s.sampleLoop p n).trace, answers := (s.sampleLoop p n).answers } := by
  induction n generalizing s with
  | zero => rfl
  | succ n ih =>
    simp only [State.sampleLoop]
    split
    · rfl
    · rw [ih]; rfl

theorem State.sampleAll_eq (p : Port) (s : State) :
    s.sampleAll p = { s with
      last := (s.sampleAll p).last, run := (s.sampleAll p).run, iter := (s.sampleAll p).iter
      trace := (s.sampleAll p).trace, answers := (s.sampleAll p).answers } := by
  unfold State.sampleAll
  rw [State.sampleLoop_eq]; rfl

/-! ### What a SAMPLE reads -/

/-- A SAMPLE of at least one read ends with a read of its port, whose byte is LAST, and adds nothing but such reads. -/
theorem State.sampleLoop_trace (p : Port) (n : Nat) (s : State) :
    (∃ vs : List Byte, (s.sampleLoop p n).trace = s.trace ++ vs.map (.read p)) ∧
    (0 < n → (s.sampleLoop p n).trace.getLast? = some (.read p (s.sampleLoop p n).last)) := by
  induction n generalizing s with
  | zero => exact ⟨⟨[], by simp [State.sampleLoop]⟩, fun h => absurd h (by omega)⟩
  | succ n ih =>
    simp only [State.sampleLoop]
    split
    · exact ⟨⟨[s.nextByte p], by simp⟩, fun _ => by simp⟩
    · rename_i hnd
      obtain ⟨⟨vs, hvs⟩, hl⟩ := ih (s.sampleRead p)
      refine ⟨⟨s.nextByte p :: vs, by rw [hvs]; simp⟩, fun _ => ?_⟩
      cases n with
      | zero => simp [State.sampleLoop]
      | succ n => exact hl (by omega)

theorem State.sampleAll_trace (p : Port) (s : State) :
    (∃ vs : List Byte, (s.sampleAll p).trace = s.trace ++ vs.map (.read p)) ∧
    (s.sampleAll p).trace.getLast? = some (.read p (s.sampleAll p).last) := by
  have h := s.startSample.sampleLoop_trace p Config.stableMaxIters
  exact ⟨h.1, h.2 (by decide)⟩

/-! ### The sequencer's position -/

/-- The state with its sequencer at a given place. -/
def State.atPos (g : Prog) (k : BitVec 3) (h : Phase) (s : State) : State := { s with prog := g, stepIx := k, ph := h }

theorem State.sampleRead_atPos (p : Port) (g : Prog) (k : BitVec 3) (h : Phase) (s : State) :
    (s.atPos g k h).sampleRead p = (s.sampleRead p).atPos g k h := rfl

theorem State.sampleLoop_atPos (p : Port) (g : Prog) (k : BitVec 3) (h : Phase) (n : Nat) (s : State) :
    (s.atPos g k h).sampleLoop p n = (s.sampleLoop p n).atPos g k h := by
  induction n generalizing s with
  | zero => rfl
  | succ n ih =>
    simp only [State.sampleLoop, State.sampleRead_atPos, ih]
    have : ((s.sampleRead p).atPos g k h).sampleDone = (s.sampleRead p).sampleDone := rfl
    rw [this]
    split <;> rfl

theorem State.strobeSample_atPos (p : Port) (l : Level) (d : Dest) (g : Prog) (k : BitVec 3) (h : Phase) (s : State) :
    (s.atPos g k h).strobeSample p l d = (s.strobeSample p l d).atPos g k h := by
  have h1 : ((s.atPos g k h).strobe p l).startSample = ((s.strobe p l).startSample).atPos g k h := by
    cases p <;> rfl
  simp only [State.strobeSample, State.sampleAll, h1, State.sampleLoop_atPos]
  cases d <;> rfl

/-! ### Stretches of steps -/

/-- n steps, each of them of a busy block and one bus access long, lead from s to u. -/
def Stretch (n : Nat) (s u : State) : Prop :=
  run n s = .next u ∧ u.trace.length = s.trace.length + n ∧
  ∀ m, m < n → ∃ v, run m s = .next v ∧ v.busy = true ∧ v.done = false ∧ v.trace.length = s.trace.length + m

theorem Stretch.trans {n m : Nat} {s u w : State} (h : Stretch n s u) (k : Stretch m u w) : Stretch (n + m) s w := by
  refine ⟨by rw [run_add n m s u h.1]; exact k.1, by rw [k.2.1, h.2.1]; omega, fun i hi => ?_⟩
  by_cases hin : i < n
  · exact h.2.2 i hin
  · obtain ⟨v, hv, hb, hd, hl⟩ := k.2.2 (i - n) (by omega)
    refine ⟨v, ?_, hb, hd, by rw [hl, h.2.1]; omega⟩
    have := run_add n (i - n) s u h.1
    rw [show n + (i - n) = i by omega] at this
    rw [this, hv]

theorem Stretch.one {s u : State} (hs : step s = .next u) (hb : s.busy = true) (hd : s.done = false)
    (hl : u.trace.length = s.trace.length + 1) : Stretch 1 s u :=
  ⟨by simp only [run, hs], hl, fun m hm => ⟨s, by rw [show m = 0 by omega]; rfl, hb, hd, by omega⟩⟩

/-- The counters while a SAMPLE runs. -/
structure State.Counting (s : State) : Prop where
  runLt : s.run.toNat < 3
  runLe : s.run.toNat ≤ s.iter.toNat
  iterLt : s.iter.toNat < 64

theorem State.sampleRead_counts (p : Port) (s : State) (h : s.Counting) :
    (s.sampleRead p).iter.toNat = s.iter.toNat + 1 ∧ (s.sampleRead p).run.toNat ≤ s.run.toNat + 1 ∧
    1 ≤ (s.sampleRead p).run.toNat ∧ (s.sampleRead p).run.toNat ≤ (s.sampleRead p).iter.toNat := by
  obtain ⟨h1, h2, h3⟩ := h
  have hi : (s.iter + 1).toNat = s.iter.toNat + 1 := by
    rw [BitVec.toNat_add]; simp; omega
  have hr : (s.run + 1).toNat = s.run.toNat + 1 := by
    rw [BitVec.toNat_add]; simp; omega
  refine ⟨by simpa using hi, ?_, ?_, ?_⟩ <;> simp only [State.sampleRead_run, State.sampleRead_iter, State.runAfter] <;>
    split <;> (try rw [hi]) <;> (try rw [hr]) <;> (try simp) <;> omega

theorem State.sampleDone_toNat (s : State) : s.sampleDone = true ↔ s.run.toNat = 3 ∨ s.iter.toNat = 64 := by
  rw [State.sampleDone_iff, ← BitVec.toNat_inj, ← BitVec.toNat_inj]; rfl

/-- A running SAMPLE with k reads left is finished after some of them, and the steps run exactly its loop. -/
theorem sampleLoop_stretch (k : Nat) (s : State) (hb : s.busy = true) (hd : s.done = false) (hp : s.ph = .rd)
    (hh : s.host = []) (hc : s.Counting) (hk : s.iter.toNat + k = 64) :
    ∃ n, n ≤ k ∧ Stretch n s (s.sampleLoop s.port k).afterRead ∧ (s.sampleLoop s.port k).sampleDone = true ∧
      (s.sampleLoop s.port k).iter.toNat = s.iter.toNat + n ∧
      (s.sampleLoop s.port k).run.toNat ≤ (s.sampleLoop s.port k).iter.toNat := by
  induction k generalizing s with
  | zero => exact absurd hc.iterLt (by omega)
  | succ k ih =>
    have hcnt := s.sampleRead_counts s.port hc
    have hmove : s.move.isQuiet = true := by simp [State.move, hh, HostMove.isQuiet]
    have hstep := step_busy_rd s hb hmove hp
    rw [State.hostTurn_nil s hh] at hstep
    by_cases hdone : (s.sampleRead s.port).sampleDone = true
    · refine ⟨1, by omega, ?_, ?_, ?_, ?_⟩ <;> simp only [State.sampleLoop, hdone, if_true]
      · refine Stretch.one hstep hb hd ?_
        have : ∀ t : State, t.afterRead.trace = t.trace := fun t => by
          unfold State.afterRead State.nextEntry State.endOfSchedule
          repeat' split
          all_goals simp
        rw [this]; simp
      · exact hcnt.1
      · exact hcnt.2.2.2
    · have hdone' : (s.sampleRead s.port).sampleDone = false := by simpa using hdone
      have hnot := hdone
      rw [State.sampleDone_toNat] at hnot
      have hc' : (s.sampleRead s.port).Counting := by
        obtain ⟨h1, h2, h3⟩ := hc
        exact ⟨by omega, hcnt.2.2.2, by omega⟩
      obtain ⟨n, hn, hst, hdn, hit, hru⟩ := ih (s.sampleRead s.port) (by simpa) (by simpa) (by simpa) (by simpa) hc'
        (by rw [hcnt.1]; omega)
      have heq : s.sampleLoop s.port (k + 1) = (s.sampleRead s.port).sampleLoop s.port k := by
        simp [State.sampleLoop, hdone']
      rw [State.sampleRead_port] at hst hdn hit hru
      rw [heq]
      refine ⟨1 + n, by omega, ?_, hdn, by rw [hit, hcnt.1]; omega, hru⟩
      refine Stretch.trans (Stretch.one ?_ hb hd (by simp)) hst
      rw [hstep, State.afterRead_going _ hdone']

/-- Three to sixty-four reads end a SAMPLE. -/
theorem sampleAll_stretch (s : State) (hb : s.busy = true) (hd : s.done = false) (hp : s.ph = .rd) (hh : s.host = [])
    (hr : s.run = 0) (hi : s.iter = 0) :
    ∃ n, 3 ≤ n ∧ n ≤ 64 ∧ Stretch n s (s.sampleAll s.port).afterRead ∧ (s.sampleAll s.port).sampleDone = true := by
  have hs : s.startSample = s := by cases s; simp_all [State.startSample]
  obtain ⟨n, hn, hst, hdn, hit, hru⟩ := sampleLoop_stretch 64 s hb hd hp hh
    ⟨by rw [hr]; decide, by rw [hr]; exact Nat.zero_le _, by rw [hi]; decide⟩ (by rw [hi]; rfl)
  refine ⟨n, ?_, hn, by rw [State.sampleAll, hs]; exact hst, by rw [State.sampleAll, hs]; exact hdn⟩
  rw [State.sampleDone_toNat] at hdn
  simp only [hi] at hit
  simp at hit
  omega

/-- One entry of a schedule: its strobe write and its SAMPLE, four to sixty-five accesses. -/
theorem entry_stretch (s : State) (g : Prog) (k : BitVec 3) (l : Level) (d : Dest) (hb : s.busy = true)
    (hd : s.done = false) (hh : s.host = []) (he : entry g k = (l, d)) :
    ∃ n, 4 ≤ n ∧ n ≤ 65 ∧
      Stretch n (s.atPos g k .wr) ((s.strobeSample s.port l d).atPos g k .rd).nextEntry := by
  let t := s.atPos g k .wr
  have hstep : step t = .next ((t.strobe s.port l).afterStrobe) := by
    have := step_busy_wr t hb (by simp [t, State.atPos, State.move, hh, HostMove.isQuiet]) rfl
    rw [this, State.hostTurn_nil t hh]
    simp only [t, State.atPos, he]
  have hwrap : (t.strobe s.port l).afterStrobe = ((s.strobe s.port l).startSample).atPos g k .rd := by
    simp only [t]; cases s.port <;> rfl
  obtain ⟨n, h3, h64, hst, hdn⟩ := sampleAll_stretch (((s.strobe s.port l).startSample).atPos g k .rd)
    (by simpa [State.atPos]) (by simpa [State.atPos]) rfl (by simpa [State.atPos]) rfl rfl
  refine ⟨1 + n, by omega, by omega, ?_⟩
  have h1 : Stretch 1 t (((s.strobe s.port l).startSample).atPos g k .rd) := by
    refine Stretch.one (by rw [hstep, hwrap]) hb hd ?_
    simp [State.atPos, t]
  refine Stretch.trans h1 ?_
  have hport : (((s.strobe s.port l).startSample).atPos g k .rd).port = s.port := by simp [State.atPos]
  rw [hport] at hst hdn
  have hall : (((s.strobe s.port l).startSample).atPos g k .rd).sampleAll s.port =
      ((s.strobe s.port l).sampleAll s.port).atPos g k .rd := by
    simp only [State.sampleAll]
    rw [← State.sampleLoop_atPos]; rfl
  rw [hall] at hst hdn
  rw [State.afterRead_done _ hdn] at hst
  have hprog : ((s.strobe s.port l).sampleAll s.port |>.atPos g k .rd).prog = g := rfl
  have hix : ((s.strobe s.port l).sampleAll s.port |>.atPos g k .rd).stepIx = k := rfl
  rw [hprog, hix, he] at hst
  have hdel : (((s.strobe s.port l).sampleAll s.port).atPos g k .rd).deliver d =
      (s.strobeSample s.port l d).atPos g k .rd := by
    simp only [State.strobeSample]; cases d <;> rfl
  rw [hdel] at hst
  exact hst

end Sys2Proof.Machine
end

