-- ==== Sys2Proof/Laws/Schedule.lean ====
section
/-! SUPPORT. The steps of a whole schedule, and the procedures as walks through the schedules. -/

namespace Sys2Proof.Machine

/-- The procedure of a list of entries: strobe, sample and hand over, one after the other (30_encoding.md R52). -/
def State.walk (p : Port) (es : List (Level × Dest)) (s : State) : State :=
  es.foldl (fun t e => t.strobeSample p e.1 e.2) s

theorem State.walk_nil (p : Port) (s : State) : s.walk p [] = s := rfl
theorem State.walk_cons (p : Port) (l : Level) (d : Dest) (es : List (Level × Dest)) (s : State) :
    s.walk p ((l, d) :: es) = (s.strobeSample p l d).walk p es := rfl

/-! ### What an entry leaves alone -/

theorem State.strobeSample_eq (p : Port) (l : Level) (d : Dest) (s : State) :
    s.strobeSample p l d = { s with
      last := (s.strobeSample p l d).last, run := (s.strobeSample p l d).run, iter := (s.strobeSample p l d).iter
      smp := (s.strobeSample p l d).smp, ds := (s.strobeSample p l d).ds
      thA := (s.strobeSample p l d).thA, thB := (s.strobeSample p l d).thB
      thAHeld := (s.strobeSample p l d).thAHeld, thBHeld := (s.strobeSample p l d).thBHeld
      trace := (s.strobeSample p l d).trace, answers := (s.strobeSample p l d).answers } := by
  unfold State.strobeSample
  rw [State.sampleAll_eq]
  cases d <;> cases p <;> rfl

theorem State.walk_eq (p : Port) (es : List (Level × Dest)) (s : State) :
    s.walk p es = { s with
      last := (s.walk p es).last, run := (s.walk p es).run, iter := (s.walk p es).iter
      smp := (s.walk p es).smp, ds := (s.walk p es).ds
      thA := (s.walk p es).thA, thB := (s.walk p es).thB
      thAHeld := (s.walk p es).thAHeld, thBHeld := (s.walk p es).thBHeld
      trace := (s.walk p es).trace, answers := (s.walk p es).answers } := by
  induction es generalizing s with
  | nil => rfl
  | cons e es ih =>
    simp only [State.walk, List.foldl_cons] at ih ⊢
    rw [ih, State.strobeSample_eq]

@[simp] theorem State.walk_busy (p : Port) (es : List (Level × Dest)) (s : State) : (s.walk p es).busy = s.busy := by
  rw [State.walk_eq]
@[simp] theorem State.walk_done (p : Port) (es : List (Level × Dest)) (s : State) : (s.walk p es).done = s.done := by
  rw [State.walk_eq]
@[simp] theorem State.walk_host (p : Port) (es : List (Level × Dest)) (s : State) : (s.walk p es).host = s.host := by
  rw [State.walk_eq]
@[simp] theorem State.walk_port (p : Port) (es : List (Level × Dest)) (s : State) : (s.walk p es).port = s.port := by
  rw [State.walk_eq]
@[simp] theorem State.walk_devType (p : Port) (es : List (Level × Dest)) (s : State) :
    (s.walk p es).devType = s.devType := by
  rw [State.walk_eq]
@[simp] theorem State.walk_op (p : Port) (es : List (Level × Dest)) (s : State) : (s.walk p es).op = s.op := by
  rw [State.walk_eq]

/-! ### What an entry does -/

/-- An entry writes its one code, reads its own port, leaves the line at its level and the other line alone. -/
theorem State.strobeSample_bus (p : Port) (l : Level) (d : Dest) (s : State) :
    (∃ vs : List Byte, (s.strobeSample p l d).trace = s.trace ++ .write (Config.code p l) :: vs.map (.read p)) ∧
    (s.strobeSample p l d).trace.getLast? = some (.read p (s.strobeSample p l d).last) ∧
    (∀ q, (s.strobeSample p l d).th q = if q = p then l else s.th q) ∧
    (∀ q, (s.strobeSample p l d).thHeld q = (decide (q = p) || s.thHeld q)) := by
  have h := (s.strobe p l).sampleAll_trace p
  have hf := (s.strobe p l).sampleAll_eq p
  unfold State.strobeSample
  refine ⟨?_, ?_, fun q => ?_, fun q => ?_⟩
  · obtain ⟨vs, hvs⟩ := h.1
    exact ⟨vs, by rw [State.deliver_trace, hvs]; simp⟩
  · rw [State.deliver_trace, State.deliver_last]; exact h.2
  · rw [State.deliver_th, ← State.strobe_th, hf]; cases q <;> rfl
  · rw [State.deliver_thHeld, ← State.strobe_thHeld, hf]; cases q <;> rfl

/-- Where an entry puts the inverted result of its SAMPLE. -/
theorem State.strobeSample_dest (p : Port) (l : Level) (d : Dest) (s : State) :
    (match d with
      | .discard => (s.strobeSample p l d).smp = s.smp ∧ (s.strobeSample p l d).ds = s.ds
      | .ds => (s.strobeSample p l d).smp = s.smp ∧ (s.strobeSample p l d).ds = inv (s.strobeSample p l d).last
      | .smp i => (s.strobeSample p l d).smp = s.smp.set i (inv (s.strobeSample p l d).last) ∧
          (s.strobeSample p l d).ds = s.ds) := by
  have hf := (s.strobe p l).sampleAll_eq p
  unfold State.strobeSample
  cases d <;> simp <;> rw [hf] <;> simp

/-- On a steady line an entry uses up three answers, all the same byte, and LAST is that byte (40_sampler.md R61 (a)). -/
theorem State.strobeSample_steady (p : Port) (l : Level) (d : Dest) (s : State) (b : Byte) (rest : List Byte)
    (h : s.answers = b :: b :: b :: rest) :
    (s.strobeSample p l d).answers = rest ∧ (s.strobeSample p l d).last = b := by
  have hloop : ∀ t : State, t.run = 0 → t.iter = 0 → t.answers = b :: b :: b :: rest →
      (t.sampleLoop p 64).answers = rest ∧ (t.sampleLoop p 64).last = b := by
    intro t hr hi ha
    simp [State.sampleLoop, State.sampleRead, State.ioRead, State.log, State.nextByte, State.runAfter, State.sampleDone,
      hr, hi, ha, Config.stableReads, Config.stableMaxIters]
  have := hloop (s.strobe p l).startSample rfl rfl (by rw [← h]; cases p <;> rfl)
  unfold State.strobeSample State.sampleAll
  rw [show Config.stableMaxIters = 64 from rfl]
  cases d <;> exact this

/-! ### The procedures walk the schedules -/

theorem State.detectBody_walk (p : Port) (s : State) : s.detectBody p = (s.walk p (schedule .det)).writeType := rfl
theorem State.read3Body_walk (p : Port) (s : State) : s.read3Body p = (s.walk p (schedule .r3)).writeThree := rfl
theorem State.read6Body_walk (p : Port) (s : State) : s.read6Body p = (s.walk p (schedule .r6)).writeSix := rfl

/-- READ's decode part is READ6's when DETECT's part gave Six (45_read.md R77). -/
theorem State.readBody_six (p : Port) (s : State) (h : (s.detectBody p).devType = DeviceType.six.code) :
    s.readBody p = (s.detectBody p).read6Body p := if_pos h
/-- READ's decode part is READ3's otherwise (45_read.md R77). -/
theorem State.readBody_other (p : Port) (s : State) (h : (s.detectBody p).devType ≠ DeviceType.six.code) :
    s.readBody p = (s.detectBody p).read3Body p := if_neg h

/-! ### The steps of a schedule -/

/-- The steps walk the rest of a schedule, from the strobe write of entry k to the read that ends its last SAMPLE. -/
theorem schedule_stretch (g : Prog) (es : List (Level × Dest)) (k : Nat) (s : State) (hne : es ≠ [])
    (hes : (schedule g).drop k = es) (hb : s.busy = true) (hd : s.done = false) (hh : s.host = []) :
    ∃ n, 4 * es.length ≤ n ∧ n ≤ 65 * es.length ∧
      Stretch n (s.atPos g (BitVec.ofNat 3 k) .wr) ((s.walk s.port es).atPos g (lastIx g) .rd).nextEntry := by
  have hlen : (schedule g).length = (lastIx g).toNat + 1 := by cases g <;> rfl
  have hsmall : (lastIx g).toNat < 8 := (lastIx g).isLt
  induction es generalizing k s with
  | nil => exact absurd rfl hne
  | cons e es ih =>
    have hdrop : (schedule g).length - k = es.length + 1 := by rw [← List.length_drop, hes]; rfl
    have hk : (BitVec.ofNat 3 k).toNat = k := by rw [BitVec.toNat_ofNat]; omega
    have he : entry g (BitVec.ofNat 3 k) = (e.1, e.2) := by
      have : (schedule g)[k]? = some e := by
        rw [← List.head?_drop, hes]; rfl
      simp only [entry, hk, List.getD, this, Option.getD_some]
    obtain ⟨n, h4, h65, hst⟩ := entry_stretch s g (BitVec.ofNat 3 k) e.1 e.2 hb hd hh he
    cases es with
    | nil =>
      refine ⟨n, by simpa using h4, by simpa using h65, ?_⟩
      have : BitVec.ofNat 3 k = lastIx g := by
        apply BitVec.eq_of_toNat_eq; simp only [List.length_nil] at hdrop; rw [hk]; omega
      rw [this] at hst ⊢
      exact hst
    | cons f fs =>
      have hlt : BitVec.ofNat 3 k < lastIx g := by
        rw [BitVec.lt_def, hk]; simp only [List.length_cons] at hdrop; omega
      have hsucc : BitVec.ofNat 3 k + 1 = BitVec.ofNat 3 (k + 1) := by
        apply BitVec.eq_of_toNat_eq; simp
      have hnext : ((s.strobeSample s.port e.1 e.2).atPos g (BitVec.ofNat 3 k) .rd).nextEntry =
          (s.strobeSample s.port e.1 e.2).atPos g (BitVec.ofNat 3 (k + 1)) .wr := by
        rw [State.nextEntry_within _ hlt, ← hsucc]; rfl
      rw [hnext] at hst
      have hf := s.strobeSample_eq s.port e.1 e.2
      obtain ⟨m, h4', h65', hst'⟩ := ih (k + 1) (s.strobeSample s.port e.1 e.2) (by simp)
        (by rw [← List.drop_drop, hes]; rfl) (by rw [hf]; exact hb) (by rw [hf]; exact hd) (by rw [hf]; exact hh)
      have hport : (s.strobeSample s.port e.1 e.2).port = s.port := by rw [hf]
      rw [hport] at hst'
      refine ⟨n + m, ?_, ?_, hst.trans hst'⟩ <;> simp only [List.length_cons] at * <;> omega

end Sys2Proof.Machine
end

