-- ==== Sys2Proof/Tests/Slice0.lean ====
section
/-! SUPPORT. The model's own tests: ill-formed terms, words written out from the encoding table, one-step vectors of
95_test_vectors.md, and a witness for the hypotheses of each statement. -/

namespace Sys2Proof.Machine.Tests

open Sys2Proof Sys2Proof.Machine

/-! ### WellFormed: a term each check refuses -/

theorem test_reserved_is_no_operation : ¬ (Instr.reserved .a).WellFormed := by decide
theorem test_micro_operations_are_no_host_commands :
    ¬ (Instr.setStrobe .a .high).HostCommand ∧ ¬ (Instr.sample .b).HostCommand ∧ ¬ (Instr.format 0x081).HostCommand ∧
    ¬ (Instr.reserved .b).HostCommand := by decide
theorem test_every_operation_is_well_formed :
    (Instr.detect .a).WellFormed ∧ (Instr.setStrobe .b .low).WellFormed ∧ (Instr.format 0xFFF).WellFormed := by decide

/-! ### Decode: words written out bit by bit from 30_encoding.md R51 -/

theorem test_decode_detect : decodeWord 0b0000#4 = .detect .a ∧ decodeWord 0b1000#4 = .detect .b := by decide
theorem test_decode_read3 : decodeWord 0b0001#4 = .read3 .a ∧ decodeWord 0b1001#4 = .read3 .b := by decide
theorem test_decode_read6 : decodeWord 0b0010#4 = .read6 .a ∧ decodeWord 0b1010#4 = .read6 .b := by decide
theorem test_decode_read : decodeWord 0b0011#4 = .read .a ∧ decodeWord 0b1011#4 = .read .b := by decide
theorem test_decode_setStrobe :
    decodeWord 0b0100#4 = .setStrobe .a .low ∧ decodeWord 0b0101#4 = .setStrobe .a .high ∧
    decodeWord 0b1100#4 = .setStrobe .b .low ∧ decodeWord 0b1101#4 = .setStrobe .b .high := by decide
theorem test_decode_sample : decodeWord 0b0110#4 = .sample .a ∧ decodeWord 0b1110#4 = .sample .b := by decide
theorem test_decode_reserved : decodeWord 0b0111#4 = .reserved .a ∧ decodeWord 0b1111#4 = .reserved .b := by decide
theorem test_decode_format : decode [0x81, 0x00] = .ok (.format 0x081) ∧ decode [0x15, 0x09] = .ok (.format 0x915) := by decide
theorem test_decode_rejects :
    decode [] = .error .empty ∧ decode [0x10] = .error .notAnOperationWord ∧
    decode [0x00, 0x10] = .error .notANormalizedState ∧ decode [0, 0, 0] = .error .tooLong := by decide
theorem test_decodeTableWord :
    decodeTableWord 8 0xB = some (.read .b) ∧ decodeTableWord 16 0x559 = some (.format 0x559) ∧
    decodeTableWord 8 0x10 = none ∧ decodeTableWord 24 0 = none := by decide

/-! ### Small states -/

/-- After reset, with host moves and answers of the environment. -/
def idle (ms : List HostMove) (bs : List Byte) : State := { State.reset with host := ms, answers := bs }

/-- In the middle of a transaction on port A: a SAMPLE that has read LAST = v. -/
def sampling (o : Op) (g : Prog) (k : BitVec 3) (c : BitVec 2) (n : BitVec 7) (v : Byte) (bs : List Byte) : State :=
  { State.reset with
    busy := true, op := o, port := .a, prog := g, stepIx := k, ph := .rd, run := c, iter := n, last := v, answers := bs }

/-- A property of the next state of an outcome. -/
def after (o : Host.Outcome State Fault Refusal) (f : State → Bool) : Bool :=
  match o with
  | .next t => f t
  | .fault _ => false
  | .refused _ => false

/-! ### One step: the vectors of 95_test_vectors.md -/

/-- H1: READ B is accepted. -/
theorem test_read_is_accepted :
    after (step (idle [.present 0b1011] [])) (fun t => t.busy && !t.done && t.port == .b && t.op == .read &&
      t.op.code == 3 && t.prog == .det && t.stepIx == 0 && t.ph == .wr && t.trace == []) = true := by decide
/-- H2: a word presented to a busy block is lost; the read goes on. -/
theorem test_word_while_busy_is_lost :
    step { sampling .read6 .r6 3 0 0 0 [0x7F] with host := [.present 0b0001] } =
    step { sampling .read6 .r6 3 0 0 0 [0x7F] with host := [.wait] } := rfl
/-- H3: reserved and internal words change nothing, DONE stays. -/
theorem test_other_words_change_nothing :
    after (step { idle [.present 0b0111] [] with done := true }) (· == { idle [] [] with done := true }) = true ∧
    after (step { idle [.present 0b0101] [] with done := true }) (· == { idle [] [] with done := true }) = true ∧
    after (step { idle [.present 0b1110] [] with done := true }) (· == { idle [] [] with done := true }) = true := by decide
/-- H4: the strobe write of READ6's last entry. -/
theorem test_strobe_step :
    after (step { sampling .read6 .r6 7 3 9 0 [] with ph := .wr }) (fun t => t.thA == .high && t.run == 0 && t.iter == 0 &&
      t.ph == .rd && t.busy) = true := by decide
/-- H5: the third equal byte ends the SAMPLE and its inversion is stored. -/
theorem test_stable_byte_is_stored :
    after (step (sampling .read6 .r6 1 2 5 0x7F [0x7F])) (fun t => t.run == 3 && t.iter == 6 && t.smp[0] == 0x80 &&
      t.stepIx == 2 && t.ph == .wr) = true := by decide
/-- H6: a changed byte starts a new run. -/
theorem test_changed_byte_restarts_the_run :
    after (step (sampling .read6 .r6 1 2 5 0x7F [0xFF])) (fun t => t.last == 0xFF && t.run == 1 && t.iter == 6 &&
      t.ph == .rd && t.stepIx == 1) = true := by decide
/-- H7: the sixty-fourth read ends the SAMPLE. -/
theorem test_timeout_returns_the_last_byte :
    after (step (sampling .read6 .r6 1 1 63 0x00 [0x55])) (fun t => t.last == 0x55 && t.run == 1 && t.iter == 64 &&
      t.smp[0] == 0xAA && t.ph == .wr) = true := by decide
/-- H8: READ goes on with R6 when the nibble is 0xF. -/
theorem test_read_goes_on_with_six :
    after (step (sampling .read .det 4 2 2 0xF0 [0xF0])) (fun t => t.ds == 0x0F && t.devType == 2 && t.prog == .r6 &&
      t.stepIx == 0 && t.ph == .wr && t.busy && !t.done) = true := by decide
/-- H9: DETECT completes. -/
theorem test_detect_completes :
    after (step (sampling .detect .det 4 2 2 0xF0 [0xF0])) (fun t => t.ds == 0x0F && t.devType == 2 && t.done && !t.busy &&
      t.hostRead .devType == some (.devType 2) && t.hostRead .result == none) = true := by decide
/-- The last step of the table of P4: READ3 completes with 0x03F. -/
theorem test_read3_completes :
    after (step { sampling .read3 .r3 2 2 2 0xDF [0xDF] with smp := #v[0, 0x2F, 0, 0, 0, 0] }) (fun t =>
      t.smp[0] == 0x20 && t.result == 0x03F && t.ext == 7 && t.done && !t.busy) = true := by decide
/-- P1: READ6 completes with EXT = 5 and 0x559. -/
theorem test_read6_completes :
    after (step { sampling .read6 .r6 7 2 2 0xFF [0xFF] with smp := #v[0x29, 0x49, 0x29, 0x49, 0x2F, 0x45] }) (fun t =>
      t.result == 0x559 && t.ext == 5 && t.done && !t.busy && t.devType == 0) = true := by decide
/-- H10: reset in the middle of a transaction. -/
theorem test_reset_abandons :
    after (step { sampling .read6 .r6 7 2 2 0xFF [0xFF] with host := [.reset] }) (fun t => !t.busy && !t.done &&
      t.trace == [] && t.answers == [0xFF]) = true := by decide
/-- H11: a host read just after reset reads no value. -/
theorem test_read_after_reset_reads_nothing :
    State.reset.hostRead .result = none ∧ State.reset.hostRead .devType = none ∧ State.reset.fmt = none := by decide
/-- B1, the bus event. -/
theorem test_setStrobe_bus :
    exec (.setStrobe .a .high) (idle [] []) =
    .next { idle [] [] with trace := [.write (Config.code .a .high)], thA := .high, thAHeld := true } := rfl
/-- B4: the other port's output still holds no value. -/
theorem test_setStrobe_other_port :
    after (exec (.setStrobe .b .low) (idle [] [])) (fun t => t.thValue .b == some .low && t.thValue .a == none) = true := by
  decide
/-- The first read of a SAMPLE never compares with the old LAST (step 6 of the table of P4). -/
theorem test_sample_first_read :
    after (exec (.sample .a) { idle [] [0xFF] with last := 0xFF }) (fun t => t.run == 1 && t.iter == 1) = true := by decide
/-- FORMAT of Start and Up (S8 as corrected) and G8. -/
theorem test_format :
    formatState 0x081 = "000010000001".toList ∧ formatState 0x915 = "100100010101".toList := by decide
/-- A call of FORMAT is answered in the step of a busy block's bus access, which it does not hold up (R86). -/
theorem test_format_step :
    after (step { sampling .read6 .r6 7 2 2 0xFF [0xFF] with host := [.format 0x081] }) (fun t =>
      t.fmtOut == some "000010000001".toList && t.trace == [.read .a 0xFF] && t.done && !t.busy) = true := by decide
/-- A call of a command waits while the block is busy. -/
theorem test_call_waits :
    after (step { sampling .read6 .r6 7 0 0 0xFF [0xFF] with host := [.call 0b0000] }) (fun t =>
      t.host == [.call 0b0000] && t.iter == 1) = true := by decide
/-- Every row of the opcode table runs as the first operation after reset. -/
theorem test_rows_run_after_reset :
    ([(8, 0), (8, 1), (8, 2), (8, 3), (8, 4), (8, 5), (8, 6), (8, 7), (16, 0x081)].all fun r =>
      after (step (State.reset.withFetchWord r.1 r.2)) (fun _ => true)) = true := by decide

/-! ### The pure functions -/

/-- C1 to C9. -/
theorem test_classify :
    classify 0xF = .six ∧ classify 0xC = .three ∧ classify 0xD = .three ∧ classify 0xE = .three ∧ classify 0x0 = .legacy2 ∧
    classify 0xB = .legacy2 ∧ classify 0x8 = .legacy2 ∧ classify 0x4 = .legacy2 := by decide
/-- D2, D3, D4, D5, D7, D9, D10. -/
theorem test_dec3 :
    dec3 0xFF 0xFF = 0x0FF ∧ dec3 0x2F 0x20 = 0x03F ∧ dec3 0x2F 0x60 = 0x0BF ∧ dec3 0x61 0x4D = 0x0E1 ∧
    dec3 0x00 0x0F = 0x000 ∧ dec3 0x40 0x20 = 0x050 ∧ dec3 0x20 0x40 = 0x0A0 := by decide
/-- E1, E4, E5: slots 2, 5 and 3. -/
theorem test_decodeSix_slots :
    decodeSix #v[0x2C, 0x01, 0x2C, 0x01, 0x2F, 0x05] = 0x915 ∧ extSlot #v[0x2C, 0x01, 0x2C, 0x01, 0x2F, 0x05] = some 2 ∧
    decodeSix #v[0x29, 0x49, 0x29, 0x49, 0x2F, 0x45] = 0x559 ∧ extSlot #v[0x29, 0x49, 0x29, 0x49, 0x2F, 0x45] = some 5 ∧
    decodeSix #v[0x01, 0x01, 0x01, 0x0A, 0x01, 0x01] = 0xA01 ∧ extSlot #v[0x01, 0x01, 0x01, 0x0A, 0x01, 0x01] = some 3 := by
  decide
/-- E9, E10, E12: two deviations, none, all ones. -/
theorem test_decodeSix_corners :
    decodeSix #v[0x00, 0x01, 0x00, 0x01, 0x08, 0x06] = 0x807 ∧ decodeSix #v[0x24, 0x24, 0x24, 0x24, 0x2F, 0x24] = 0x034 ∧
    decodeSix #v[0xFF, 0xFF, 0xFF, 0xFF, 0xFF, 0xFF] = 0x0FF := by decide

/-! ### Witnesses: states and operands that meet the hypotheses of each statement -/

theorem witness_DecodeInvertsEncode : encodeWord (.setStrobe .b .high) = some 0b1101#4 := by decide
theorem witness_OnlyEncodingsDecode :
    decode [0x0F] = .ok (.reserved .b) ∧ decode [0xFF, 0x0F] = .ok (.format 0xFFF) := by decide
theorem witness_OpenParametersAreDistinct :
    Config.code .a .low = Config.code .a .low ∧ Config.addr .ctrl = Config.addr .ctrl := ⟨rfl, rfl⟩
theorem witness_StepRunsTheFetchedOperation_command :
    (idle [.present 0b0000] []).busy = false ∧ (idle [.call 0b1011] []).host = .call 0b1011 :: [] ∧
    decodeWord 0b0000#4 = .detect .a ∧ (Instr.detect .a).HostCommand ∧ (decodeWord 0b1011#4).HostCommand := by decide
theorem witness_StepRunsTheFetchedOperation_reserved :
    (idle [.present 0b1111] []).busy = false ∧ decodeWord 0b1111#4 = .reserved .b := by decide
theorem witness_StepRunsTheFetchedOperation_format :
    (idle [.format 0xFFF] []).busy = false ∧ (idle [.format 0xFFF] []).host = .format 0xFFF :: [] ∧
    (idle [.format 0xFFF] []).move = .format 0xFFF ∧ ∀ st, (idle [.wait] []).move ≠ .format st :=
  ⟨rfl, rfl, rfl, fun _ h => HostMove.noConfusion h⟩
theorem witness_StepRunsTheFetchedOperation_strobe :
    ∃ s t : State, s.busy = true ∧ s.move.isQuiet = true ∧ s.ph = .wr ∧
      exec (.setStrobe s.port (entry s.prog s.stepIx).1) s.hostTurn = .next t :=
  ⟨{ sampling .detect .det 0 0 0 0 [] with ph := .wr }, _, rfl, rfl, rfl, rfl⟩
theorem witness_StepRunsTheFetchedOperation_read :
    ∃ s t : State, s.busy = true ∧ s.move.isQuiet = true ∧ s.ph = .rd ∧ exec (.sample s.port) s.hostTurn = .next t :=
  ⟨sampling .detect .det 0 0 0 0 [], _, rfl, rfl, rfl, rfl⟩
theorem witness_PlacedOperationRunsNext :
    ∃ t u, exec (.setStrobe .a .high) (State.reset.place (.setStrobe .a .high)).takeMove = .next t ∧
      exec (.sample .b) (State.reset.place (.sample .b)).takeMove = .next u := ⟨_, _, rfl, rfl⟩
theorem witness_IdleBlockAcceptsCommands :
    (idle [.present 0b1011] []).busy = false ∧ (0b1011#4).getLsbD 2 = false ∧ (0b0000#4).getLsbD 2 = false := by decide
theorem witness_BusyBlockAcceptsNothing : (sampling .read .r6 3 1 1 0 []).busy = true := rfl
theorem witness_OtherWordsChangeNothing :
    (0b0100#4).getLsbD 2 = true ∧ (0b1111#4).getLsbD 2 = true ∧ (idle [] []).busy = false ∧
    (sampling .read .r6 3 1 1 0 []).busy = true := by decide
theorem witness_IdleBlockIsStill : State.reset.Final ∧ (idle [.wait] []).busy = false ∧ (idle [.wait] []).host = .wait :: [] := by
  decide
theorem witness_OneBusAccessAStep :
    (∃ t, step (sampling .read .r6 3 1 1 0 []) = .next t) ∧ (sampling .read .r6 3 1 1 0 []).move.isQuiet = true ∧
    (∃ t, step { sampling .read .r6 3 1 1 0 [] with ph := .wr } = .next t) ∧
    (∃ t, step (idle [.reset] []) = .next t) ∧ (idle [.reset] []).move.isQuiet = false :=
  ⟨⟨_, rfl⟩, rfl, ⟨_, rfl⟩, ⟨_, rfl⟩, rfl⟩
/-- A busy block whose host calls the formatter makes its bus access all the same. -/
theorem witness_OneBusAccessAStep_format :
    let s := { sampling .read .r6 3 1 1 0 [0x7F] with host := [.format 0x081] }
    s.busy = true ∧ s.move.isQuiet = true ∧ s.ph = .rd ∧
    after (step s) (fun t => t.trace == s.trace ++ [.read .a 0x7F] && t.answers == []) = true := by decide
theorem witness_SetStrobeWritesOneCode : Port.b ≠ Port.a := by decide
theorem witness_SampleReadsOnce : (idle [] [0x7F]).answers = 0x7F :: [] ∧ (idle [] []).answers = [] := by decide
theorem witness_SampleRepeatedIsTheProcedure :
    ∃ t, execTimes (.sample .a) 1 (idle [] [0x7F, 0x7F, 0x7F]).startSample = .next t := ⟨_, rfl⟩
/-- A1 with k = 3, A7 with k = 64, and A5 without a stable byte. -/
theorem witness_SampleReturnsFirstStableByte :
    (∃ r : Nat → Byte, r 1 = r 2 ∧ r 2 = r 3) ∧
    (∃ r : Nat → Byte, (r 62 = r 63 ∧ r 63 = r 64) ∧
      ∀ j, j < 64 → ¬ (3 ≤ j ∧ j ≤ 64 ∧ r (j - 2) = r (j - 1) ∧ r (j - 1) = r j)) ∧
    (∃ r : Nat → Byte, ∀ k, ¬ (3 ≤ k ∧ k ≤ 64 ∧ r (k - 2) = r (k - 1) ∧ r (k - 1) = r k)) := by
  refine ⟨⟨fun _ => 0x7F, rfl, rfl⟩, ⟨fun j => if 62 ≤ j then 0x55 else if j % 2 = 1 then 0x00 else 0xFF, by decide, by decide⟩,
    ⟨fun j => if j % 2 = 1 then 0x00 else 0xFF, ?_⟩⟩
  intro k ⟨h3, h64, _, h⟩
  have : ∀ k, 3 ≤ k → k < 65 → ¬ ((if (k - 1) % 2 = 1 then (0x00 : Byte) else 0xFF) = if k % 2 = 1 then 0x00 else 0xFF) := by
    intro k _ _
    rcases Nat.mod_two_eq_zero_or_one k with h | h
    · rw [if_pos (by omega), if_neg (by omega)]; decide
    · rw [if_neg (by omega), if_pos (by omega)]; decide
  exact this k h3 (by omega) h
theorem witness_SampleReturnsFirstStableByte_answers :
    (idle [] ((List.range 64).map (fun _ => 0x7F))).answers = (List.range 64).map (fun _ => (0x7F : Byte)) ++ [] := by
  rw [List.append_nil]; rfl
/-- S6 (no deviation) and S5 (slot 4, nibble 0b0101). -/
theorem witness_ExtendedFlagsFollowTheSlot :
    (∀ i : Fin 6, i = 2 ∨ i = 3 ∨ i = 4 ∨ i = 5 →
      lowNibble (#v[0x23, 0x43, 0x23, 0x43, 0x23, 0x43] : SampleBuffer)[i] = 0x3#4) ∧
    lowNibble (#v[0x20, 0x49, 0x20, 0x49, 0x25, 0x49] : SampleBuffer)[4] = 0b0101#4 ∧
    lowNibble (#v[0x20, 0x49, 0x20, 0x49, 0x25, 0x49] : SampleBuffer)[1] ≠ 0b0101#4 := by decide
theorem witness_NoSlotDecodesAsThree : extSlot #v[0x23, 0x43, 0x23, 0x43, 0x23, 0x43] = none := by decide
theorem witness_SixButtonDecode : extSlot #v[0x23, 0x43, 0x23, 0x43, 0x23, 0x43] = none ∧
    extSlot #v[0x20, 0x49, 0x20, 0x49, 0x25, 0x49] = some 4 := by decide
theorem witness_FormatCallLeavesTheBlockAlone :
    (idle [.format 0x081, .wait] []).host = .format 0x081 :: [.wait] ∧ (idle [.format 0x081, .wait] []).busy = false ∧
    (∃ s : State, s.busy = true ∧ s.host = .format 0x081 :: []) :=
  ⟨rfl, rfl, { sampling .read .r6 3 1 1 0 [0x7F] with host := [.format 0x081] }, rfl, rfl⟩
theorem witness_FormatRendersTheFlagsInOrder : formatState 0x081 = formatState 0x081 ∧ 11 < 12 := ⟨rfl, by decide⟩
theorem witness_WriteStepStrobes :
    let s := { sampling .read6 .r6 7 3 9 0 [] with ph := .wr }
    s.busy = true ∧ s.ph = .wr ∧ s.move.isQuiet = true ∧ Port.b ≠ s.port := by decide
/-- H6 (unfinished), H5 (to S[0]), H7 (timeout), and a discarded entry. -/
theorem witness_ReadStepGoesOn :
    let s := sampling .read6 .r6 1 2 5 0x7F [0xFF]
    let t := sampling .read6 .r6 1 2 5 0x7F [0x7F]
    let u := sampling .read6 .r6 0 1 63 0x00 [0x55]
    s.busy = true ∧ s.ph = .rd ∧ s.move.isQuiet = true ∧ (s.nextByte .a ≠ s.last ∧ s.iter + 1 ≠ 64) ∧
    (t.nextByte .a = t.last ∧ t.run + 1 = 3 ∧ t.stepIx < lastIx t.prog ∧ (entry t.prog t.stepIx).2 = .smp 0) ∧
    (u.iter + 1 = 64 ∧ u.stepIx < lastIx u.prog ∧ (entry u.prog u.stepIx).2 = .discard) := by decide
/-- H9, H8, and the last steps of READ3 and READ6. -/
theorem witness_LastReadStepEndsTheSchedule :
    let d := sampling .detect .det 4 2 2 0xF0 [0xF0]
    let r := sampling .read .det 4 1 63 0xF0 [0xF2]
    let a := sampling .read3 .r3 2 2 2 0xDF [0xDF]
    let b := sampling .read6 .r6 7 2 2 0xFF [0xFF]
    (d.busy = true ∧ d.ph = .rd ∧ d.move.isQuiet = true ∧ d.prog = .det ∧ d.stepIx = 4 ∧ d.op = .detect ∧ d.run + 1 = 3 ∧
      d.nextByte .a = d.last) ∧
    (r.prog = .det ∧ r.stepIx = 4 ∧ r.op = .read ∧ r.iter + 1 = 64) ∧
    (a.prog = .r3 ∧ a.stepIx = 2 ∧ a.nextByte .a = a.last ∧ a.run + 1 = 3) ∧
    (b.prog = .r6 ∧ b.stepIx = 7 ∧ b.nextByte .a = b.last ∧ b.run + 1 = 3) := by decide
/-- In the middle of a transaction, with results held from before. -/
theorem witness_ResetAbandonsTheTransaction :
    let s := { sampling .read6 .r6 7 2 2 0xFF [] with
      host := [.reset], typeHeld := true, resultHeld := true, thAHeld := true, thBHeld := true, thB := .high }
    s.host = .reset :: [] ∧ s.typeHeld = true ∧ s.resultHeld = true ∧ s.thHeld .b = true := by decide
theorem witness_HostReadsHeldResultsOnly :
    let s := { State.reset with done := true, typeHeld := true, resultHeld := true }
    s.done = true ∧ s.typeHeld = true ∧ s.resultHeld = true ∧ State.reset.done = false ∧ State.reset.typeHeld = false ∧
    State.reset.resultHeld = false := by decide
/-- A state in the middle of a SAMPLE that meets the invariant, and its step. -/
theorem witness_EveryStepKeepsTheInvariant :
    ∃ s t : State, s.Inv ∧ s.busy = true ∧ s.ph = .rd ∧ step s = .next t := by
  refine ⟨{ sampling .read .det 4 0 0 0 [0xF0] with thAHeld := true, port := .a }, _, ?_, rfl, rfl, rfl⟩
  exact {
    typeLegal := by decide
    extLegal := by decide
    noSlotNoFlags := by decide
    extendedNotAll := by decide
    writesAreCodes := fun c h => by cases h
    busyNotDone := fun _ => rfl
    doneHeld := fun h => by cases h
    stepBound := fun _ => by decide
    progFits := fun _ => .inl rfl
    counters := fun _ _ => by decide
    phaseLevel := fun _ _ => ⟨rfl, rfl⟩
    lastRead := fun _ _ h => absurd rfl h }
theorem witness_EveryCommandCompletes :
    (idle [.present 0b0111, .call 0b1000, .wait, .format 0x081] []).busy = false ∧
    ∀ m ∈ (idle [.present 0b0111, .call 0b1000, .wait, .format 0x081] []).host, m.isQuiet = true := by decide
/-- For the statements about whole transactions. -/
theorem witness_whole_transactions : (idle [] []).busy = false ∧ (idle [] []).host = [] := by decide
theorem witness_SteadyLinesAreDecoded :
    (idle [] [1, 1, 1, 2, 2, 2, 3, 3, 3]).busy = false ∧
    (idle [] [1, 1, 1, 2, 2, 2, 3, 3, 3]).answers = [1, 1, 1] ++ [2, 2, 2] ++ [3, 3, 3] ++ [] ∧
    (idle [] [1, 1, 1, 2, 2, 2, 3, 3, 3, 4, 4, 4, 5, 5, 5]).answers =
      [1, 1, 1] ++ [2, 2, 2] ++ [3, 3, 3] ++ [4, 4, 4] ++ [5, 5, 5] ++ [] ∧
    (idle [] [1, 1, 1, 2, 2, 2, 3, 3, 3, 4, 4, 4, 5, 5, 5, 6, 6, 6, 7, 7, 7, 8, 8, 8]).answers =
      [1, 1, 1] ++ [2, 2, 2] ++ [3, 3, 3] ++ [4, 4, 4] ++ [5, 5, 5] ++ [6, 6, 6] ++ [7, 7, 7] ++ [8, 8, 8] ++ [] := by decide
/-- READ's clauses: the fifth byte 0xF0 has nibble 0xF inverted, 0xF3 has 0xC, and 0xFF has 0x0. -/
theorem witness_SteadyLinesAreDecoded_read :
    classify (lowNibble (inv 0xF0)) = .six ∧ classify (lowNibble (inv 0xF3)) ≠ .six ∧
    classify (lowNibble (inv 0xFF)) ≠ .six ∧
    (idle [] [9, 9, 9, 9, 9, 9, 9, 9, 9, 9, 9, 9, 0xF0, 0xF0, 0xF0, 1, 1, 1, 2, 2, 2, 3, 3, 3, 4, 4, 4, 5, 5, 5, 6, 6, 6,
      7, 7, 7, 8, 8, 8]).answers = [9, 9, 9] ++ [9, 9, 9] ++ [9, 9, 9] ++ [9, 9, 9] ++ [0xF0, 0xF0, 0xF0] ++
      ([1, 1, 1] ++ [2, 2, 2] ++ [3, 3, 3] ++ [4, 4, 4] ++ [5, 5, 5] ++ [6, 6, 6] ++ [7, 7, 7] ++ [8, 8, 8] ++ []) ∧
    (idle [] [9, 9, 9, 9, 9, 9, 9, 9, 9, 9, 9, 9, 0xF3, 0xF3, 0xF3, 1, 1, 1, 2, 2, 2, 3, 3, 3]).answers =
      [9, 9, 9] ++ [9, 9, 9] ++ [9, 9, 9] ++ [9, 9, 9] ++ [0xF3, 0xF3, 0xF3] ++
      ([1, 1, 1] ++ [2, 2, 2] ++ [3, 3, 3] ++ []) := by decide
/-- Two idle blocks that differ in their registers. -/
theorem witness_TransactionsForgetOldRegisters :
    let s := idle [] [1, 2, 3]
    let t := { idle [] [1, 2, 3] with last := 0x55, run := 3, iter := 64, ds := 0xFF, result := 0xFFF, devType := 2 }
    s.busy = false ∧ t.busy = false ∧ s.trace = t.trace ∧ s.answers = t.answers ∧ s ≠ t := by decide

end Sys2Proof.Machine.Tests
end

/-! ### The OPEN parameters (00_scope.md R5)

A control code and an address are each a permutation's value at a number of their own (log 3), so each is different as soon
as the numbers are. -/

namespace Sys2Proof.Config

/-- Bit 1 of the row number of 20_memory.md R35 names the port. -/
theorem portOfBit_codeIndex (p : Port) (l : Level) : portOfBit ((codeIndex p l).getLsbD 1) = p := by
  cases p <;> cases l <;> rfl

/-- Bit 0 of the row number names the level. -/
theorem levelOfBit_codeIndex (p : Port) (l : Level) : levelOfBit ((codeIndex p l).getLsbD 0) = l := by
  cases p <;> cases l <;> rfl

theorem codeIndex_injective2 : Function.Injective2 codeIndex := by
  intro p q l m h
  constructor
  · rw [← portOfBit_codeIndex p l, h, portOfBit_codeIndex]
  · rw [← levelOfBit_codeIndex p l, h, levelOfBit_codeIndex]

theorem code_injective2 : Function.Injective2 code :=
  fun _ _ _ _ h => codeIndex_injective2 (codePerm.injective h)

/-- The number at which the address permutation gives a register's address. -/
def addrIndex : IoReg → Nat
  | .data .a => 0
  | .data .b => 1
  | .ctrl => 2

theorem addr_eq_addrPerm_addrIndex : ∀ r : IoReg, addr r = addrPerm (addrIndex r)
  | .data .a => rfl
  | .data .b => rfl
  | .ctrl => rfl

theorem addrIndex_injective : Function.Injective addrIndex
  | .data .a, .data .a, _ => rfl
  | .data .b, .data .b, _ => rfl
  | .ctrl, .ctrl, _ => rfl

theorem addr_injective : Function.Injective addr := by
  intro r r' h
  rw [addr_eq_addrPerm_addrIndex, addr_eq_addrPerm_addrIndex] at h
  exact addrIndex_injective (addrPerm.injective h)

end Sys2Proof.Config

namespace Sys2Proof.Machine

/-- Settles O4: codes and addresses are injective, because the permutations and the numbers they are applied to are. -/
theorem openParametersAreDistinct : Obligations.OpenParametersAreDistinct :=
  ⟨fun _ _ _ _ h => Config.code_injective2 h, fun _ _ h => Config.addr_injective h⟩

end Sys2Proof.Machine

/-! ### The invariant (10_state.md R11 to R21)

The clauses of `State.Inv` speak of three things: what the result registers and the bus record may hold (`RegsLegal`), where
a busy block stands in its command (`Running`), and how far the SAMPLE of a read step has come (`Sampling`). Each part has its
own rules below, and a step needs only the rules of the parts it touches. -/

namespace Sys2Proof.Machine

/-! #### The extended flags of a result -/

/-- What RESULT may hold beside an EXT code: a legal code, no extended flag without a slot, and never all four of them. -/
structure ResultLegal (e : BitVec 3) (r : NormalizedState) : Prop where
  ext : e ≠ 0 ∧ e ≠ 1 ∧ e ≠ 6
  noSlot : e = 7 → r.extractLsb' 8 4 = 0
  notAll : r.extractLsb' 8 4 ≠ 0xF

theorem packButtons_noExtended (lo hi : Byte) :
    (packButtons (decodeButtons lo hi false false false false)).extractLsb' 8 4 = 0 := by
  rw [packButtons_extended]; simp [decodeButtons]

/-- Without a slot no extended flag is set, whatever the bytes. -/
theorem resultLegal_noSlot (lo hi : Byte) :
    ResultLegal (extCode none) (packButtons (decodeButtons lo hi false false false false)) where
  ext := by decide
  noSlot _ := packButtons_noExtended lo hi
  notAll := by rw [packButtons_noExtended]; decide

theorem ofBool_append_eq_allOnes (a b c d : Bool)
    (h : BitVec.ofBool a ++ BitVec.ofBool b ++ BitVec.ofBool c ++ BitVec.ofBool d = 0xF#4) :
    a = true ∧ b = true ∧ c = true ∧ d = true := by
  revert a b c d; decide

/-- A nibble whose four bits are set is the sentinel. -/
theorem lowNibble_eq_sentinel (v : Byte)
    (h : v.getLsbD 3 = true ∧ v.getLsbD 0 = true ∧ v.getLsbD 1 = true ∧ v.getLsbD 2 = true) :
    lowNibble v = 0xF#4 := by
  obtain ⟨h3, h0, h1, h2⟩ := h
  apply BitVec.eq_of_getLsbD_eq
  intro i hi
  have hi' : i = 0 ∨ i = 1 ∨ i = 2 ∨ i = 3 := by omega
  rcases hi' with rfl | rfl | rfl | rfl <;> simp [lowNibble, h0, h1, h2, h3]

/-- The slot's code is one of 2 to 5, and its nibble is not the sentinel, so the flags it gives are not all set. -/
theorem resultLegal_slot (S : SampleBuffer) (i : Fin 6) (h : extSlot S = some i) (lo hi : Byte) :
    ResultLegal (extCode (some i)) (dec6 lo hi S (some i)) := by
  obtain ⟨hq, hi4⟩ := extSlot_some S i h
  have hcode : extCode (some i) ≠ 7 ∧ extCode (some i) ≠ 0 ∧ extCode (some i) ≠ 1 ∧ extCode (some i) ≠ 6 := by
    rcases hi4 with rfl | rfl | rfl | rfl <;> decide
  have hsent : lowNibble S[i] ≠ 0xF#4 := by
    simp only [qualifies, Bool.and_eq_true, bne_iff_ne] at hq
    exact hq.2
  refine ⟨hcode.2, fun h7 => absurd h7 hcode.1, fun hall => hsent ?_⟩
  rw [dec6, packButtons_extended] at hall
  exact lowNibble_eq_sentinel _ (ofBool_append_eq_allOnes _ _ _ _ hall)

theorem resultLegal_dec3 (sh sl : Byte) : ResultLegal (extCode none) (dec3 sh sl) := resultLegal_noSlot sl sh

theorem resultLegal_decodeSix (S : SampleBuffer) : ResultLegal (extCode (extSlot S)) (decodeSix S) := by
  unfold decodeSix
  cases h : extSlot S with
  | none => exact resultLegal_noSlot _ _
  | some i => exact resultLegal_slot S i h _ _

/-! #### The bus record -/

/-- The control writes of a trace are among the four codes. -/
def OnlyCodes (es : List BusEvent) : Prop := ∀ c, BusEvent.write c ∈ es → ∃ p l, c = Config.code p l

@[simp] theorem onlyCodes_append_read (es : List BusEvent) (p : Port) (v : Byte) :
    OnlyCodes (es ++ [.read p v]) ↔ OnlyCodes es := by
  simp [OnlyCodes]

@[simp] theorem onlyCodes_append_code (es : List BusEvent) (p : Port) (l : Level) :
    OnlyCodes (es ++ [.write (Config.code p l)]) ↔ OnlyCodes es := by
  constructor
  · exact fun h c hc => h c (List.mem_append_left _ hc)
  · intro h c hc
    rcases List.mem_append.mp hc with hc | hc
    · exact h c hc
    · simp only [List.mem_singleton, BusEvent.write.injEq] at hc
      exact ⟨p, l, hc⟩

/-! #### The parts of the invariant -/

/-- What TYPE, EXT, RESULT and the bus record may hold. -/
structure LegalRegs (ty : BitVec 2) (e : BitVec 3) (r : NormalizedState) (es : List BusEvent) : Prop where
  type : ty ≠ 3
  result : ResultLegal e r
  writes : OnlyCodes es

/-- What the result registers and the bus record hold in every state, busy or idle. -/
abbrev State.RegsLegal (s : State) : Prop := LegalRegs s.devType s.ext s.result s.trace

/-- Where a busy block stands: inside a schedule that belongs to its command. -/
structure State.Running (s : State) : Prop where
  busy : s.busy = true
  notDone : s.done = false
  stepBound : s.stepIx ≤ lastIx s.prog
  progFits : s.ProgFits

/-- How far a running SAMPLE has come. -/
structure State.Sampling (s : State) : Prop where
  counting : s.Counting
  runPos : s.iter ≠ 0 → s.run ≠ 0
  level : s.th s.port = (entry s.prog s.stepIx).1 ∧ s.thHeld s.port = true
  last : s.iter ≠ 0 → s.trace.getLast? = some (.read s.port s.last)

section
variable {s : State}

theorem State.Inv.regsLegal (h : s.Inv) : s.RegsLegal :=
  ⟨h.typeLegal, ⟨h.extLegal, h.noSlotNoFlags, h.extendedNotAll⟩, h.writesAreCodes⟩

theorem State.Inv.running (h : s.Inv) (hb : s.busy = true) : s.Running :=
  ⟨hb, h.busyNotDone hb, h.stepBound hb, h.progFits hb⟩

theorem State.Inv.sampling (h : s.Inv) (hb : s.busy = true) (hp : s.ph = .rd) : s.Sampling := by
  obtain ⟨hrun, hiter, hle, hpos⟩ := h.counters hb hp
  exact ⟨⟨hrun, hle, hiter⟩, hpos, h.phaseLevel hb hp, h.lastRead hb hp⟩

/-- The three parts make up the invariant again, with what DONE says. -/
theorem State.Inv.of_parts (hr : s.RegsLegal) (hd : s.done = true → s.ResultsHeld) (hs : s.busy = true → s.Running)
    (hm : s.busy = true → s.ph = .rd → s.Sampling) : s.Inv where
  typeLegal := hr.type
  extLegal := hr.result.ext
  noSlotNoFlags := hr.result.noSlot
  extendedNotAll := hr.result.notAll
  writesAreCodes := hr.writes
  busyNotDone hb := (hs hb).notDone
  doneHeld := hd
  stepBound hb := (hs hb).stepBound
  progFits hb := (hs hb).progFits
  counters hb hp :=
    have h := hm hb hp
    ⟨h.counting.runLt, h.counting.iterLt, h.counting.runLe, h.runPos⟩
  phaseLevel hb hp := (hm hb hp).level
  lastRead hb hp := (hm hb hp).last

/-- The invariant of an idle block. -/
theorem State.Inv.of_idle (hr : s.RegsLegal) (hb : s.busy = false) (hd : s.done = true → s.ResultsHeld) : s.Inv :=
  .of_parts hr hd (by simp [hb]) (by simp [hb])

/-- The invariant of a busy block before a strobe write. -/
theorem State.Inv.of_wr (hr : s.RegsLegal) (hs : s.Running) (hp : s.ph = .wr) : s.Inv :=
  .of_parts hr (by simp [hs.notDone]) (fun _ => hs) (by simp [hp])

/-- The invariant of a busy block before a read. -/
theorem State.Inv.of_rd (hr : s.RegsLegal) (hs : s.Running) (hm : s.Sampling) : s.Inv :=
  .of_parts hr (by simp [hs.notDone]) (fun _ => hs) (fun _ _ => hm)

/-! #### What each operation does to the parts -/

theorem State.RegsLegal.strobe (h : s.RegsLegal) (p : Port) (l : Level) : (s.strobe p l).RegsLegal :=
  ⟨by simpa using h.type, by simpa using h.result, by simpa using h.writes⟩

theorem State.RegsLegal.sampleRead (h : s.RegsLegal) (p : Port) : (s.sampleRead p).RegsLegal :=
  ⟨h.type, h.result, by simpa using h.writes⟩

theorem State.RegsLegal.deliver (h : s.RegsLegal) (d : Dest) : (s.deliver d).RegsLegal := by
  cases d <;> exact h

theorem State.RegsLegal.writeType (h : s.RegsLegal) : s.writeType.RegsLegal :=
  ⟨classify_code_ne _, h.result, h.writes⟩

theorem State.RegsLegal.writeThree (h : s.RegsLegal) : s.writeThree.RegsLegal :=
  ⟨h.type, resultLegal_dec3 _ _, h.writes⟩

theorem State.RegsLegal.writeSix (h : s.RegsLegal) : s.writeSix.RegsLegal :=
  ⟨h.type, resultLegal_decodeSix _, h.writes⟩

theorem State.Running.strobe (h : s.Running) (p : Port) (l : Level) : (s.strobe p l).Running := by
  obtain ⟨hb, hd, hk, hf⟩ := h
  cases p <;> exact ⟨hb, hd, hk, hf⟩

theorem State.Running.sampleRead (h : s.Running) (p : Port) : (s.sampleRead p).Running :=
  ⟨h.busy, h.notDone, h.stepBound, h.progFits⟩

theorem State.Running.deliver (h : s.Running) (d : Dest) : (s.deliver d).Running := by
  obtain ⟨hb, hd, hk, hf⟩ := h
  cases d <;> exact ⟨hb, hd, hk, hf⟩

/-- A SAMPLE that a read does not finish goes on within its bounds. -/
theorem State.Sampling.sampleRead (h : s.Sampling) (hgoing : (s.sampleRead s.port).sampleDone = false) :
    (s.sampleRead s.port).Sampling := by
  obtain ⟨hiter, hrun, hpos, hle⟩ := s.sampleRead_counts s.port h.counting
  have hnot : ¬ ((s.sampleRead s.port).run.toNat = 3 ∨ (s.sampleRead s.port).iter.toNat = 64) := by
    rw [← State.sampleDone_toNat, hgoing]; exact Bool.false_ne_true
  have hlt := h.counting.runLt
  have hilt := h.counting.iterLt
  exact {
    counting := ⟨by omega, hle, by omega⟩
    runPos := fun _ h0 => by rw [h0] at hpos; exact absurd hpos (by decide)
    level := by simpa using h.level
    last := fun _ => by simp }

/-- The strobe write of an entry sets its level, and the entry's SAMPLE has made no read. -/
theorem State.Sampling.afterStrobe (s : State) :
    (s.strobe s.port (entry s.prog s.stepIx).1).afterStrobe.Sampling where
  counting := ⟨by simp, by simp, by simp⟩
  runPos h0 := absurd (by simp) h0
  level := by simp
  last h0 := absurd (by simp) h0

/-! #### The end of a schedule -/

/-- DETECT's schedule alone gives TYPE a value, which is all that DETECT delivers. -/
theorem State.ProgFits.resultsHeld_det (h : s.ProgFits) (hp : s.prog = .det) (ho : s.op ≠ .read) :
    s.writeType.complete.ResultsHeld := by
  cases hop : s.op <;> simp_all [State.ProgFits, State.ResultsHeld]

/-- The decoding schedule gives RESULT a value; READ comes to it with TYPE written. -/
theorem State.ProgFits.resultsHeld_decode (h : s.ProgFits) (hp : s.prog ≠ .det) (r : NormalizedState) (e : BitVec 3) :
    (s.writeResult r e).complete.ResultsHeld := by
  cases hop : s.op <;> simp_all [State.ProgFits, State.ResultsHeld]

/-- The end of a schedule: READ goes on with the schedule TYPE chose, everything else completes. -/
theorem State.Running.inv_endOfSchedule (hr : s.RegsLegal) (h : s.Running) : s.endOfSchedule.Inv := by
  cases hp : s.prog with
  | det =>
    by_cases ho : s.op = .read
    · rw [State.endOfSchedule_read s hp ho]
      have hfit : (s.writeType.enter s.writeType.decodeProg).ProgFits := by
        simp only [State.ProgFits, State.enter_op, State.writeType_op, ho]
        exact .inr ⟨rfl, rfl⟩
      exact .of_wr hr.writeType ⟨h.busy, h.notDone, Nat.zero_le _, hfit⟩ rfl
    · rw [State.endOfSchedule_det s hp ho]
      exact .of_idle hr.writeType rfl fun _ => h.progFits.resultsHeld_det hp ho
  | r3 =>
    rw [State.endOfSchedule_r3 s hp]
    exact .of_idle hr.writeThree rfl fun _ =>
      h.progFits.resultsHeld_decode (by simp [hp]) _ _
  | r6 =>
    rw [State.endOfSchedule_r6 s hp]
    exact .of_idle hr.writeSix rfl fun _ =>
      h.progFits.resultsHeld_decode (by simp [hp]) _ _

/-- The end of an entry: the next entry's strobe write, or the end of the schedule. -/
theorem State.Running.inv_nextEntry (hr : s.RegsLegal) (h : s.Running) : s.nextEntry.Inv := by
  by_cases hlt : s.stepIx < lastIx s.prog
  · rw [State.nextEntry_within s hlt]
    have hle : s.stepIx + 1 ≤ lastIx s.prog := by bv_omega
    exact .of_wr hr ⟨h.busy, h.notDone, hle, h.progFits⟩ rfl
  · rw [State.nextEntry_last s hlt]
    exact h.inv_endOfSchedule hr

/-! #### The steps -/

/-- The host's inputs and outputs are no part of the invariant. -/
theorem State.Inv.withHost (h : s.Inv) (hs : List HostMove) (out : Option (List Char)) : (s.withHost hs out).Inv :=
  { h with }

theorem State.Inv.takeMove (h : s.Inv) : s.takeMove.Inv := by
  rw [s.takeMove_eq]; exact h.withHost _ s.fmtOut

theorem State.Inv.hostTurn (h : s.Inv) : s.hostTurn.Inv := by
  rw [s.hostTurn_eq]; exact h.withHost _ _

theorem State.Inv.answerFormat (h : s.Inv) (st : NormalizedState) : (s.answerFormat st).Inv :=
  h.withHost s.host _

/-- The values the model names at reset are legal, and nothing is on the bus yet (log 4). -/
theorem State.regsLegal_reset : State.reset.RegsLegal :=
  ⟨by decide, ⟨by decide, fun _ => by decide, by decide⟩, nofun⟩

/-- A reset keeps the bus record and puts the other registers to legal values (logs 4 and 6). -/
theorem State.Inv.resetEvent (h : s.Inv) : s.resetEvent.Inv :=
  .of_idle ⟨State.regsLegal_reset.type, State.regsLegal_reset.result, h.writesAreCodes⟩ rfl nofun

/-- A command's first schedule is one it walks through. -/
theorem State.progFits_of_firstProg (hp : s.prog = s.op.firstProg) : s.ProgFits := by
  cases ho : s.op <;> simp [State.ProgFits, ho, hp, Op.firstProg]

/-- Acceptance puts an idle block before the first strobe write of its command's schedule. -/
theorem State.Inv.accept (h : s.Inv) (hb : s.busy = false) (o : Op) (p : Port) : (s.accept o p).Inv := by
  rw [State.accept_idle o p s hb]
  exact .of_wr h.regsLegal ⟨rfl, rfl, Nat.zero_le _, State.progFits_of_firstProg rfl⟩ rfl

theorem State.Inv.strobeStep (h : s.Inv) (hb : s.busy = true) :
    (s.strobe s.port (entry s.prog s.stepIx).1).afterStrobe.Inv := by
  have hr := h.regsLegal.strobe s.port (entry s.prog s.stepIx).1
  obtain ⟨hb', hd, hk, hf⟩ := (h.running hb).strobe s.port (entry s.prog s.stepIx).1
  exact .of_rd hr ⟨hb', hd, hk, hf⟩ (.afterStrobe s)

theorem State.Inv.readStep (h : s.Inv) (hb : s.busy = true) (hp : s.ph = .rd) : (s.sampleRead s.port).afterRead.Inv := by
  have hr := h.regsLegal.sampleRead s.port
  have hrun := (h.running hb).sampleRead s.port
  cases hdone : (s.sampleRead s.port).sampleDone with
  | false =>
    rw [State.afterRead_going _ hdone]
    exact .of_rd hr hrun ((h.sampling hb hp).sampleRead hdone)
  | true =>
    rw [State.afterRead_done _ hdone]
    exact (hrun.deliver _).inv_nextEntry (hr.deliver _)

end

/-- Settles O35: what the host does is no part of the invariant, and each of the cases of a step keeps it. -/
theorem everyStepKeepsTheInvariant : Obligations.EveryStepKeepsTheInvariant := by
  intro s t h hstep
  rcases step_cases s t hstep with ⟨-, rfl⟩ | ⟨-, hb, -, rfl⟩ | ⟨-, hb, hp, rfl⟩ |
    ⟨-, hb, ⟨o, p, rfl⟩ | ⟨st, -, rfl⟩ | rfl⟩
  · exact h.takeMove.resetEvent
  · simpa using h.hostTurn.strobeStep (by simpa using hb)
  · simpa using h.hostTurn.readStep (by simpa using hb) (by simpa using hp)
  · exact h.takeMove.accept (by simpa using hb) o p
  · exact h.takeMove.answerFormat st
  · exact h.takeMove

/-- Settles O34: the block is idle and its registers hold the values the model names. -/
theorem invariantHoldsAtReset : Obligations.InvariantHoldsAtReset := .of_idle State.regsLegal_reset rfl nofun

end Sys2Proof.Machine

/-! ### Whole transactions see no register left from before (10_state.md R17, R27)

Two blocks with the same bus record and the same coming answers (`SameEnv`) make the same accesses in every SAMPLE, so each
entry of a schedule leaves the same byte at its destination; the results are decoded from destinations the schedule filled. -/

namespace Sys2Proof.Machine

/-- The two blocks have made the same bus accesses and will get the same answers. -/
structure SameEnv (s t : State) : Prop where
  trace : s.trace = t.trace
  answers : s.answers = t.answers

/-- Beside that their counters agree, and LAST too once the running SAMPLE has made a read. -/
structure SameReads (s t : State) : Prop extends SameEnv s t where
  run : s.run = t.run
  iter : s.iter = t.iter
  last : s.iter = 0 ∨ s.last = t.last

section
variable {s t : State} {p : Port}

/-! #### A SAMPLE -/

/-- The first read does not look at LAST, for it starts a run of its own (40_sampler.md R62). -/
theorem SameReads.runAfter (h : SameReads s t) (v : Byte) : s.runAfter v = t.runAfter v := by
  simp only [State.runAfter, ← h.run, ← h.iter]
  rcases h.last with h0 | hl
  · simp [h0]
  · rw [hl]

theorem SameReads.sampleRead (h : SameReads s t) : SameReads (s.sampleRead p) (t.sampleRead p) := by
  have hv := State.nextByte_congr p s t h.answers h.trace
  exact {
    trace := by simp [h.trace, hv]
    answers := by simp [h.answers]
    run := by simp [hv, h.runAfter]
    iter := by simp [h.iter]
    last := .inr hv }

theorem SameReads.sampleDone (h : SameReads s t) : s.sampleDone = t.sampleDone := by
  simp only [State.sampleDone, h.run, h.iter]

theorem SameReads.sampleLoop (n : Nat) (h : SameReads s t) : SameReads (s.sampleLoop p n) (t.sampleLoop p n) := by
  induction n generalizing s t with
  | zero => exact h
  | succ n ih =>
    have hr : SameReads (s.sampleRead p) (t.sampleRead p) := h.sampleRead
    simp only [State.sampleLoop, hr.sampleDone]
    split
    · exact hr
    · exact ih hr

theorem SameEnv.sampleAll (h : SameEnv s t) : SameEnv (s.sampleAll p) (t.sampleAll p) :=
  have hstart : SameReads s.startSample t.startSample := ⟨⟨h.trace, h.answers⟩, rfl, rfl, .inl rfl⟩
  (hstart.sampleLoop Config.stableMaxIters).toSameEnv

/-! #### An entry -/

/-- The byte an entry's destination holds; a discarded byte is left in LAST alone. -/
def State.destByte : Dest → State → Byte
  | .discard, s => s.last
  | .ds, s => s.ds
  | .smp i, s => s.smp[i]

theorem SameEnv.strobeSample (h : SameEnv s t) (l : Level) (d : Dest) :
    SameEnv (s.strobeSample p l d) (t.strobeSample p l d) := by
  have hstrobe : SameEnv (s.strobe p l) (t.strobe p l) := ⟨by simp [h.trace], by simp [h.answers]⟩
  have hall : SameEnv ((s.strobe p l).sampleAll p) ((t.strobe p l).sampleAll p) := hstrobe.sampleAll
  exact ⟨by simpa [State.strobeSample] using hall.trace, by simpa [State.strobeSample] using hall.answers⟩

/-- LAST is the byte of the last read on the bus, and the two bus records agree. -/
theorem SameEnv.strobeSample_last (h : SameEnv s t) (l : Level) (d : Dest) :
    (s.strobeSample p l d).last = (t.strobeSample p l d).last := by
  obtain ⟨-, hs, -⟩ := s.strobeSample_bus p l d
  obtain ⟨-, ht, -⟩ := t.strobeSample_bus p l d
  rw [(h.strobeSample l d).trace, ht] at hs
  simpa using hs.symm

/-- An entry fills its own destination and leaves the others. -/
theorem State.strobeSample_destByte (l : Level) (d e : Dest) (he : e ≠ .discard) :
    (s.strobeSample p l d).destByte e = if e = d then inv (s.strobeSample p l d).last else s.destByte e := by
  have hs := s.strobeSample_dest p l d
  cases e with
  | discard => exact absurd rfl he
  | ds => cases d <;> simp_all [State.destByte]
  | smp i =>
    cases d with
    | smp j => simp [State.destByte, hs.1, Vector.getElem_set, Fin.ext_iff, eq_comm]
    | _ => simp_all [State.destByte]

/-- After an entry the destinations agree that agreed before, and its own. -/
theorem SameEnv.strobeSample_destByte (h : SameEnv s t) (l : Level) (d e : Dest)
    (he : e = d ∨ s.destByte e = t.destByte e) :
    (s.strobeSample p l d).destByte e = (t.strobeSample p l d).destByte e := by
  have hlast : (s.strobeSample p l d).last = (t.strobeSample p l d).last := h.strobeSample_last l d
  by_cases hdis : e = .discard
  · subst hdis; exact hlast
  · rw [State.strobeSample_destByte l d e hdis, State.strobeSample_destByte l d e hdis, hlast]
    split
    · rfl
    · exact he.resolve_left ‹_›

/-! #### A schedule -/

theorem SameEnv.walk (h : SameEnv s t) (es : List (Level × Dest)) : SameEnv (s.walk p es) (t.walk p es) := by
  induction es generalizing s t with
  | nil => exact h
  | cons e es ih => exact ih (h.strobeSample e.1 e.2)

/-- After a walk the destinations agree that agreed before, and those of its entries. -/
theorem SameEnv.walk_destByte (h : SameEnv s t) (es : List (Level × Dest)) (e : Dest)
    (he : e ∈ es.map Prod.snd ∨ s.destByte e = t.destByte e) :
    (s.walk p es).destByte e = (t.walk p es).destByte e := by
  induction es generalizing s t with
  | nil => exact he.resolve_left (by simp)
  | cons f es ih =>
    refine ih (h.strobeSample f.1 f.2) ?_
    by_cases hf : e ∈ es.map Prod.snd
    · exact .inl hf
    · refine .inr (h.strobeSample_destByte f.1 f.2 e ?_)
      simpa [hf] using he

/-- After a walk the strobe line is at the level of its last entry. -/
theorem SameEnv.walk_th (h : SameEnv s t) (es : List (Level × Dest)) (hp : es ≠ [] ∨ s.th p = t.th p) :
    (s.walk p es).th p = (t.walk p es).th p := by
  induction es generalizing s t with
  | nil => exact hp.resolve_left (by simp)
  | cons f es ih =>
    refine ih (h.strobeSample f.1 f.2) (.inr ?_)
    obtain ⟨-, -, hs, -⟩ := s.strobeSample_bus p f.1 f.2
    obtain ⟨-, -, ht, -⟩ := t.strobeSample_bus p f.1 f.2
    rw [hs, ht, if_pos rfl, if_pos rfl]

/-! #### A command -/

/-- The bus record, the coming answers, port p's line and LAST agree. -/
structure SameLine (p : Port) (s t : State) : Prop extends SameEnv s t where
  th : s.th p = t.th p
  last : s.last = t.last

/-- What DETECT delivers agrees, and the sample it comes from. -/
structure SameType (s t : State) : Prop where
  devType : s.devType = t.devType
  ds : s.ds = t.ds

/-- What READ3 and READ6 deliver agrees. -/
structure SameResult (s t : State) : Prop where
  result : s.result = t.result
  ext : s.ext = t.ext

theorem SameEnv.walk_schedule (h : SameEnv s t) (g : Prog) :
    SameLine p (s.walk p (schedule g)) (t.walk p (schedule g)) where
  toSameEnv := h.walk _
  th := h.walk_th _ (.inl (by cases g <;> simp [schedule]))
  last := h.walk_destByte _ .discard (.inl (by cases g <;> decide))

/-- A walk leaves TYPE alone, and DS if it does not fill it. -/
theorem SameType.walk (hd : SameType s t) (h : SameEnv s t) (es : List (Level × Dest)) :
    SameType (s.walk p es) (t.walk p es) where
  devType := by simp [hd.devType]
  ds := h.walk_destByte es .ds (.inr hd.ds)

theorem SameLine.writeType (h : SameLine p s t) : SameLine p s.writeType t.writeType :=
  ⟨⟨h.trace, h.answers⟩, by simpa using h.th, h.last⟩

theorem SameLine.writeResult (h : SameLine p s t) (r r' : NormalizedState) (e e' : BitVec 3) :
    SameLine p (s.writeResult r e) (t.writeResult r' e') :=
  ⟨⟨h.trace, h.answers⟩, by simpa using h.th, h.last⟩

theorem SameType.writeResult (h : SameType s t) (r r' : NormalizedState) (e e' : BitVec 3) :
    SameType (s.writeResult r e) (t.writeResult r' e') :=
  ⟨h.devType, h.ds⟩

theorem SameType.of_ds (h : s.ds = t.ds) : SameType s.writeType t.writeType :=
  ⟨by simp [h], h⟩

theorem SameResult.of_two_samples (h0 : s.smp[0] = t.smp[0]) (h1 : s.smp[1] = t.smp[1]) :
    SameResult s.writeThree t.writeThree :=
  ⟨by simp [h0, h1], rfl⟩

theorem SameResult.of_smp (h : s.smp = t.smp) : SameResult s.writeSix t.writeSix :=
  ⟨by simp [h], by simp [h]⟩

/-- DETECT fills DS, and TYPE follows from it. -/
theorem SameEnv.detectBody (h : SameEnv s t) :
    SameLine p (s.detectBody p) (t.detectBody p) ∧ SameType (s.detectBody p) (t.detectBody p) := by
  rw [State.detectBody_walk, State.detectBody_walk]
  exact ⟨(h.walk_schedule .det).writeType, .of_ds (h.walk_destByte _ .ds (.inl (by decide)))⟩

/-- READ3 fills the two samples it decodes. -/
theorem SameEnv.read3Body (h : SameEnv s t) :
    SameLine p (s.read3Body p) (t.read3Body p) ∧ SameResult (s.read3Body p) (t.read3Body p) := by
  rw [State.read3Body_walk, State.read3Body_walk]
  exact ⟨(h.walk_schedule .r3).writeResult _ _ _ _, .of_two_samples
    (h.walk_destByte _ (.smp 0) (.inl (by decide))) (h.walk_destByte _ (.smp 1) (.inl (by decide)))⟩

/-- READ6 fills all six samples. -/
theorem SameEnv.read6Body (h : SameEnv s t) :
    SameLine p (s.read6Body p) (t.read6Body p) ∧ SameResult (s.read6Body p) (t.read6Body p) := by
  rw [State.read6Body_walk, State.read6Body_walk]
  have hfilled : ∀ i : Fin 6, Dest.smp i ∈ (schedule .r6).map Prod.snd := by decide
  exact ⟨(h.walk_schedule .r6).writeResult _ _ _ _, .of_smp <|
    Vector.ext fun i hi => h.walk_destByte _ (.smp ⟨i, hi⟩) (.inl (hfilled ⟨i, hi⟩))⟩

theorem SameType.read3Body (hd : SameType s t) (h : SameEnv s t) : SameType (s.read3Body p) (t.read3Body p) := by
  rw [State.read3Body_walk, State.read3Body_walk]
  exact (hd.walk h _).writeResult _ _ _ _

theorem SameType.read6Body (hd : SameType s t) (h : SameEnv s t) : SameType (s.read6Body p) (t.read6Body p) := by
  rw [State.read6Body_walk, State.read6Body_walk]
  exact (hd.walk h _).writeResult _ _ _ _

/-- READ's two parts take the same path, for TYPE agrees after the first. -/
theorem SameEnv.readBody (h : SameEnv s t) :
    SameLine p (s.readBody p) (t.readBody p) ∧ SameType (s.readBody p) (t.readBody p) ∧
      SameResult (s.readBody p) (t.readBody p) := by
  obtain ⟨hline, htype⟩ : SameLine p (s.detectBody p) (t.detectBody p) ∧ _ := h.detectBody
  have henv := hline.toSameEnv
  by_cases hsix : (s.detectBody p).devType = DeviceType.six.code
  · rw [State.readBody_six p s hsix, State.readBody_six p t (htype.devType ▸ hsix)]
    exact ⟨henv.read6Body.1, htype.read6Body henv, henv.read6Body.2⟩
  · rw [State.readBody_other p s hsix, State.readBody_other p t (htype.devType ▸ hsix)]
    exact ⟨henv.read3Body.1, htype.read3Body henv, henv.read3Body.2⟩

theorem SameEnv.body (h : SameEnv s t) (o : Op) :
    SameLine p (s.body o p) (t.body o p) ∧ (o = .detect ∨ o = .read → SameType (s.body o p) (t.body o p)) ∧
      (o ≠ .detect → SameResult (s.body o p) (t.body o p)) := by
  cases o with
  | detect => exact ⟨h.detectBody.1, fun _ => h.detectBody.2, fun hne => absurd rfl hne⟩
  | read3 => exact ⟨h.read3Body.1, by simp, fun _ => h.read3Body.2⟩
  | read6 => exact ⟨h.read6Body.1, by simp, fun _ => h.read6Body.2⟩
  | read => exact ⟨h.readBody.1, fun _ => h.readBody.2.1, fun _ => h.readBody.2.2⟩

theorem SameEnv.accept (h : SameEnv s t) (hs : s.busy = false) (ht : t.busy = false) (o : Op) :
    SameEnv (s.accept o p) (t.accept o p) := by
  rw [State.accept_idle o p s hs, State.accept_idle o p t ht]
  exact ⟨h.trace, h.answers⟩

end

/-- Settles O44: acceptance keeps the bus record and the answers equal, and the body of a command then leaves what it delivers
equal. -/
theorem transactionsForgetOldRegisters : Obligations.TransactionsForgetOldRegisters := by
  intro o p s t hs ht htrace hanswers
  have henv : SameEnv (s.accept o p) (t.accept o p) := SameEnv.accept ⟨htrace, hanswers⟩ hs ht o
  obtain ⟨hline, htype, hresult⟩ := henv.body (p := p) o
  refine ⟨hline.trace, hline.answers, by simpa [State.transaction] using hline.th, hline.last, fun ho => ?_, fun ho => ?_⟩
  · exact ⟨(htype ho).devType, (htype ho).ds⟩
  · exact ⟨(hresult ho).result, (hresult ho).ext⟩

/-! ### What the host reads (10_state.md R23, R26) -/

/-- Settles O31: BUSY and DONE are 0 at reset, and no flag says that an output holds a value (log 5). -/
theorem resetLeavesNoResult : Obligations.ResetLeavesNoResult :=
  ⟨rfl, rfl, fun _ => rfl, fun p => by cases p <;> rfl, rfl, rfl⟩

/-- Settles O33: a read is guarded by DONE and by the flag of its register (log 5), and FMT is formatted from RESULT. -/
theorem hostReadsHeldResultsOnly : Obligations.HostReadsHeldResultsOnly := by
  intro s
  refine ⟨fun hd _ => ?_, fun hd ht => ?_, fun hd hr => ?_, fun ht => ?_, fun hr => ?_⟩
  · simp [State.hostRead, hd]
  · simp [State.hostRead, hd, ht]
  · simp [State.hostRead, State.fmt, hd, hr]
  · simp [State.hostRead, ht]
  · simp [State.hostRead, State.fmt, hr]

end Sys2Proof.Machine

/-! ### The bits of a sample that no decoder reads (20_memory.md R34)

The mask 0x6F drops bits 4 and 7 of a sample. The decoders read single bits, EXTSLOT compares low nibbles, and MERGE
works bit by bit, so each of them has a lemma that says what the mask does to it. -/

namespace Sys2Proof.Machine

/-- Of the low-phase byte only bits 5 and 6 are read, so a mask that keeps these two will do (43_read3.md R69). -/
theorem decodeButtons_masked (lo hi m : Byte) (mode z y x : Bool) (h5 : m.getLsbD 5 = true) (h6 : m.getLsbD 6 = true) :
    decodeButtons (lo &&& m) (hi &&& 0x6F#8) mode z y x = decodeButtons lo hi mode z y x := by
  simp only [decodeButtons, BitVec.getLsbD_and, h5, h6, Bool.and_true]
  simp

@[simp] theorem lowNibble_masked (v : Byte) : lowNibble (v &&& 0x6F#8) = lowNibble v := by
  rw [lowNibble, BitVec.extractLsb'_and]
  exact BitVec.and_allOnes

theorem qualifies_masked (S : SampleBuffer) : qualifies (S.map (· &&& 0x6F#8)) = qualifies S := by
  funext i
  simp [qualifies]

theorem extSlot_masked (S : SampleBuffer) : extSlot (S.map (· &&& 0x6F#8)) = extSlot S := by
  rw [extSlot, qualifies_masked, extSlot]

/-- The mask distributes over the OR, whichever samples are merged. -/
theorem orExcept_masked (S : SampleBuffer) (e : Option (Fin 6)) (is : List (Fin 6)) :
    orExcept (S.map (· &&& 0x6F#8)) e is = orExcept S e is &&& 0x6F#8 := by
  have hstep : ∀ (acc : Byte) (i : Fin 6),
      (acc &&& 0x6F#8) ||| (S.map (· &&& 0x6F#8))[i] = (acc ||| S[i]) &&& 0x6F#8 := fun acc i => by
    simp [BitVec.and_or_distrib_right]
  exact List.foldl_hom (g₁ := fun acc i => acc ||| S[i]) (g₂ := fun acc i => acc ||| (S.map (· &&& 0x6F#8))[i])
    (init := 0) _ hstep

theorem merge_masked (S : SampleBuffer) (e : Option (Fin 6)) :
    merge (S.map (· &&& 0x6F#8)) e = ((merge S e).1 &&& 0x6F#8, (merge S e).2 &&& 0x6F#8) := by
  simp only [merge, orExcept_masked]

/-- The extended flags come from the slot's low nibble, which the mask keeps. -/
theorem dec6_masked (lo hi : Byte) (S : SampleBuffer) (e : Option (Fin 6)) :
    dec6 (lo &&& 0x6F#8) (hi &&& 0x6F#8) (S.map (· &&& 0x6F#8)) e = dec6 lo hi S e := by
  cases e with
  | none => simp [dec6, decodeButtons_masked]
  | some i => simp [dec6, decodeButtons_masked]

/-- Settles O25: MERGE commutes with the mask, and DEC3, EXTSLOT and DEC6 read only bits that it keeps. -/
theorem unusedBitsChangeNothing : Obligations.UnusedBitsChangeNothing := by
  refine ⟨fun sh sl => ?_, fun S => ⟨extSlot_masked S, ?_⟩⟩
  · rw [dec3, decodeButtons_masked _ _ _ _ _ _ _ rfl rfl, dec3]
  · simp only [decodeSix, extSlot_masked, merge_masked, dec6_masked]

end Sys2Proof.Machine

/-! ### The encoding (30_encoding.md R44, R45, R51, R54)

The decoder accepts two forms of byte list: an operation word below four zero bits, and the two bytes of FORMAT's operand
(log 11). Both directions of the round trip are read off from that: on words it is the table of R51, and on the bytes it is
that cutting a byte into nibbles and joining them again change nothing. -/

namespace Sys2Proof

/-! #### Operation words -/

/-- An encoded word decodes to its operation; FORMAT has no word (R51). -/
theorem decodeWord_of_encodeWord (i : Instr) (w : OpWord) (h : encodeWord i = some w) : decodeWord w = i := by
  cases i with
  | detect p | read3 p | read6 p | read p | sample p | reserved p => cases h; cases p <;> rfl
  | setStrobe p l => cases h; cases p <;> cases l <;> rfl
  | format st => cases h

/-- Every one of the sixteen words is the word of the operation it decodes to (R51). -/
theorem encodeWord_decodeWord (w : OpWord) : encodeWord (decodeWord w) = some w := by
  revert w; decide

/-! #### The byte layout (log 11) -/

theorem encode_of_encodeWord (i : Instr) (w : OpWord) (h : encodeWord i = some w) : encode i = [0#4 ++ w] := by
  cases i with
  | format st => cases h
  | detect p | read3 p | read6 p | read p | setStrobe p l | sample p | reserved p => cases h; rfl

/-- Four bits below four zero bits have a zero high nibble, so either form of the layout is accepted (R56). -/
theorem highNibble_zero_append (n : BitVec 4) : (0#4 ++ n : Byte).extractLsb' 4 4 = 0 := BitVec.extractLsb'_append_eq_left

/-- A byte whose high nibble is 0 is its low nibble below four zero bits. -/
theorem zero_append_lowNibble (b : Byte) (h : b.extractLsb' 4 4 = 0) : (0#4 ++ b.extractLsb' 0 4 : Byte) = b := by
  have hb : (b.extractLsb' 4 4 ++ b.extractLsb' 0 4 : Byte) = b := BitVec.extractLsb'_append_extractLsb'
  rwa [h] at hb

theorem decode_wordByte (w : OpWord) : decode [(0#4 ++ w : Byte)] = .ok (decodeWord w) := by
  rw [decode, if_pos (highNibble_zero_append w), BitVec.extractLsb'_append_eq_right]

/-- The two bytes of an operand hold its upper four and its lower eight bits, which joined are the operand. -/
theorem decode_encodeOperand (st : NormalizedState) : decode (encodeOperand st) = .ok (.format st) := by
  rw [encodeOperand, decode, if_pos (highNibble_zero_append _), BitVec.extractLsb'_append_eq_right]
  exact congrArg (Except.ok ∘ Instr.format) BitVec.extractLsb'_append_extractLsb'

theorem encodeOperand_append (lo hi : Byte) (h : hi.extractLsb' 4 4 = 0) :
    encodeOperand (hi.extractLsb' 0 4 ++ lo) = [lo, hi] := by
  rw [encodeOperand, BitVec.extractLsb'_append_eq_right, BitVec.extractLsb'_append_eq_left, zero_append_lowNibble hi h]

/-- The decoder accepts an operation word's byte and the two bytes of an operand, and nothing else. -/
theorem decode_eq_ok (bs : List Byte) (i : Instr) (h : decode bs = .ok i) :
    (∃ w, bs = [(0#4 ++ w : Byte)] ∧ i = decodeWord w) ∨ (∃ st, bs = encodeOperand st ∧ i = .format st) := by
  match bs with
  | [] => cases h
  | [b] =>
    rw [decode] at h
    split at h
    next hb => cases h; exact .inl ⟨_, by rw [zero_append_lowNibble b hb], rfl⟩
    next => cases h
  | [lo, hi] =>
    rw [decode] at h
    split at h
    next hb => cases h; exact .inr ⟨_, (encodeOperand_append lo hi hb).symm, rfl⟩
    next => cases h
  | _ :: _ :: _ :: _ => cases h

/-! #### The obligations -/

/-- Settles O2: an operation with a word decodes as the word does, and the one without a word, FORMAT, from its operand. -/
theorem decodeInvertsEncode : Obligations.DecodeInvertsEncode := by
  refine fun i => ⟨?_, decodeWord_of_encodeWord i⟩
  cases hw : encodeWord i with
  | some w => rw [encode_of_encodeWord i w hw, decode_wordByte, decodeWord_of_encodeWord i w hw]
  | none =>
    cases i with
    | format st => exact decode_encodeOperand st
    | detect p | read3 p | read6 p | read p | setStrobe p l | sample p | reserved p => cases hw

/-- Settles O3: each of the two forms the decoder accepts is an encoding. -/
theorem onlyEncodingsDecode : Obligations.OnlyEncodingsDecode := by
  intro bs i h
  obtain ⟨w, rfl, rfl⟩ | ⟨st, rfl, rfl⟩ := decode_eq_ok bs i h
  · exact encode_of_encodeWord _ w (encodeWord_decodeWord w)
  · rfl

/-- Settles O1: the words are closed, and so is the one operand. -/
theorem operationWordsDecodeAsListed : Obligations.OperationWordsDecodeAsListed := by
  unfold Obligations.OperationWordsDecodeAsListed
  decide

end Sys2Proof

/-! ### SAMPLE, read by read (40_sampler.md R60 to R62)

The loop of R60 is so many reads in a row: the first after which the SAMPLE is finished. Whether it is finished depends on
ITER, which is the number of reads, and on RUN, which is the length of the run of equal bytes that ends at the last read. -/

namespace Sys2Proof.Machine

/-- k reads of a SAMPLE in a row, whether or not it is finished before. -/
def State.reads (p : Port) (k : Nat) (s : State) : State := (State.sampleRead p)^[k] s

section
variable {p : Port} {k n : Nat} {s : State}

@[simp] theorem State.reads_zero : s.reads p 0 = s := rfl

/-- One more read comes last. -/
theorem State.reads_succ : s.reads p (k + 1) = (s.reads p k).sampleRead p := Function.iterate_succ_apply' _ k s

/-- One more read comes first. -/
theorem State.sampleRead_reads : (s.sampleRead p).reads p k = s.reads p (k + 1) := rfl

theorem execTimes_sample : execTimes (.sample p) n s = .next (s.reads p n) := by
  induction n generalizing s with
  | zero => rfl
  | succ n ih => simp only [execTimes, exec_sample, ih, State.sampleRead_reads]

/-! #### The read at which a SAMPLE ends -/

/-- The k-th read finishes the SAMPLE, and no earlier one does. -/
structure State.EndsAt (p : Port) (k : Nat) (s : State) : Prop where
  pos : 0 < k
  finished : (s.reads p k).sampleDone = true
  going : ∀ j, 0 < j → j < k → (s.reads p j).sampleDone = false

/-- The loop makes the reads up to the one at which the SAMPLE ends. -/
theorem State.EndsAt.sampleLoop (h : s.EndsAt p k) (hk : k ≤ n) : s.sampleLoop p n = s.reads p k := by
  induction n generalizing s k with
  | zero => exact absurd h.pos (by omega)
  | succ n ih =>
    obtain ⟨j, rfl⟩ : ∃ j, k = j + 1 := Nat.exists_eq_add_one.mpr h.pos
    rw [State.sampleLoop]
    by_cases hj : j = 0
    · subst hj; exact if_pos h.finished
    · have hgoing : (s.sampleRead p).sampleDone = false := h.going 1 (by omega) (by omega)
      have hrest : (s.sampleRead p).EndsAt p j :=
        ⟨by omega, h.finished, fun i _ hi => h.going (i + 1) (by omega) (by omega)⟩
      simp only [hgoing, Bool.false_eq_true, if_false]
      exact ih hrest (by omega)

theorem State.EndsAt.sampleAll (h : s.startSample.EndsAt p k) (hk : k ≤ 64) : s.sampleAll p = s.startSample.reads p k :=
  h.sampleLoop hk

/-! #### The counters -/

theorem State.reads_iter : (s.startSample.reads p k).iter = BitVec.ofNat 7 k := by
  induction k with
  | zero => rfl
  | succ k ih => rw [State.reads_succ, State.sampleRead_iter, ih, BitVec.ofNat_add]; rfl

theorem State.runAfter_le (v : Byte) (s : State) : (s.runAfter v).toNat ≤ s.run.toNat + 1 := by
  unfold State.runAfter
  split
  · exact Nat.le_add_left 1 _
  · rw [BitVec.toNat_add]; exact Nat.mod_le _ _

theorem State.reads_run_le : (s.startSample.reads p k).run.toNat ≤ k := by
  induction k with
  | zero => exact Nat.le_refl 0
  | succ k ih =>
    rw [State.reads_succ, State.sampleRead_run]
    exact (State.runAfter_le _ _).trans (Nat.succ_le_succ ih)

/-- The 64th read finishes the SAMPLE (40_sampler.md R61 (b)). -/
theorem State.reads_done_at_limit : (s.startSample.reads p 64).sampleDone = true := by
  rw [State.sampleDone_iff, State.reads_iter]; exact .inr rfl

/-- No SAMPLE is finished before its third read. -/
theorem State.three_le_of_reads_done (h : (s.startSample.reads p k).sampleDone = true) : 3 ≤ k := by
  have hrun : (s.startSample.reads p k).run.toNat ≤ k := State.reads_run_le
  rw [State.sampleDone_toNat, State.reads_iter, BitVec.toNat_ofNat] at h
  omega

/-- Every SAMPLE ends, at the third read at the earliest and at the 64th at the latest. -/
theorem State.exists_endsAt (p : Port) (s : State) : ∃ n, 3 ≤ n ∧ n ≤ 64 ∧ s.startSample.EndsAt p n := by
  have hex : ∃ k, (s.startSample.reads p k).sampleDone = true := ⟨64, State.reads_done_at_limit⟩
  have hthree : 3 ≤ Nat.find hex := State.three_le_of_reads_done (Nat.find_spec hex)
  refine ⟨Nat.find hex, hthree, Nat.find_min' hex State.reads_done_at_limit, by omega, Nat.find_spec hex, ?_⟩
  exact fun j _ hj => Bool.eq_false_iff.mpr (Nat.find_min hex hj)

end

/-- Settles O14: a read takes the next scripted answer, or the free value (log 2). -/
theorem sampleReadsOnce : Obligations.SampleReadsOnce := by
  refine fun p s => ⟨rfl, State.nextByte_cons p s, fun h => ?_⟩
  simp only [State.nextByte, h]

/-- Settles O15: n is the read at which the SAMPLE ends. -/
theorem sampleRepeatedIsTheProcedure : Obligations.SampleRepeatedIsTheProcedure := by
  intro p s
  obtain ⟨n, hthree, hlimit, hends⟩ := s.exists_endsAt p
  have hall : s.sampleAll p = s.startSample.reads p n := hends.sampleAll hlimit
  refine ⟨n, hthree, hlimit, ?_, ?_, ?_, fun m t hm hmn ht => ?_⟩
  · rw [execTimes_sample, hall]
  · rw [hall]; exact hends.finished
  · rw [hall, State.reads_iter]; exact Nat.mod_eq_of_lt (by omega)
  · rw [execTimes_sample] at ht
    cases ht
    exact hends.going m hm hmn

/-! #### The bytes the environment returns -/

/-- The length of the run of equal bytes that ends at r(k), in the sequence r(1), r(2), ... -/
def runLength (r : Nat → Byte) : Nat → Nat
  | 0 => 0
  | k + 1 => if k = 0 ∨ r (k + 1) ≠ r k then 1 else runLength r k + 1

theorem runLength_succ_le (r : Nat → Byte) (k : Nat) : runLength r (k + 1) ≤ runLength r k + 1 := by
  rw [runLength]; split <;> omega

theorem runLength_succ_pos (r : Nat → Byte) (k : Nat) : 0 < runLength r (k + 1) := by
  rw [runLength]; split <;> omega

theorem two_le_runLength_iff (r : Nat → Byte) (k : Nat) : 2 ≤ runLength r (k + 1) ↔ 0 < k ∧ r k = r (k + 1) := by
  cases k with
  | zero => simp [runLength]
  | succ k =>
    have := runLength_succ_pos r k
    rw [runLength]
    split <;> grind

/-- A run of three ends at r(k) exactly when r(k-2), r(k-1) and r(k) are equal (40_sampler.md R61 (a)). -/
theorem three_le_runLength_iff (r : Nat → Byte) (k : Nat) :
    3 ≤ runLength r k ↔ 3 ≤ k ∧ r (k - 2) = r (k - 1) ∧ r (k - 1) = r k := by
  match k with
  | 0 => simp [runLength]
  | 1 => simp [runLength]
  | k + 2 =>
    have htwo := two_le_runLength_iff r k
    rw [runLength]
    split <;> grind

/-- The environment returns r(1) to r(n) to the next n reads. -/
def Returns (p : Port) (s : State) (r : Nat → Byte) (n : Nat) : Prop := ∀ k < n, (s.reads p k).nextByte p = r (k + 1)

section
variable {p : Port} {k n : Nat} {s : State} {r : Nat → Byte}

theorem State.reads_answers : (s.reads p k).answers = s.answers.drop k := by
  induction k with
  | zero => rfl
  | succ k ih => rw [State.reads_succ, State.sampleRead_answers, ih, List.tail_drop]

theorem Returns.reads_last (h : Returns p s r n) (hpos : 0 < k) (hk : k ≤ n) : (s.reads p k).last = r k := by
  obtain ⟨j, rfl⟩ : ∃ j, k = j + 1 := Nat.exists_eq_add_one.mpr hpos
  rw [State.reads_succ, State.sampleRead_last, h j hk]

theorem Returns.reads_trace (h : Returns p s r n) (hk : k ≤ n) :
    (s.reads p k).trace = s.trace ++ (List.range k).map (fun j => .read p (r (j + 1))) := by
  induction k with
  | zero => simp
  | succ k ih =>
    rw [State.reads_succ, State.sampleRead_trace, ih (by omega), h k hk, List.range_succ, List.map_append,
      List.append_assoc, List.map_singleton]

/-- RUN is the length of the run that ends at the last byte, as far as its two bits reach. -/
theorem Returns.reads_run (h : Returns p s.startSample r n) (hn : n ≤ 64) (hk : k ≤ n) :
    (s.startSample.reads p k).run = BitVec.ofNat 2 (runLength r k) := by
  induction k with
  | zero => rfl
  | succ k ih =>
    have hfirst : (s.startSample.reads p k).iter + 1 = 1 ↔ k = 0 := by
      rw [State.reads_iter, ← BitVec.toNat_inj, BitVec.toNat_add, BitVec.toNat_ofNat]
      change (k % 128 + 1) % 128 = 1 ↔ k = 0
      omega
    simp only [State.reads_succ, State.sampleRead_run, h k hk, State.runAfter, runLength, hfirst, ih (by omega)]
    by_cases h0 : k = 0
    · simp [h0]
    · rw [h.reads_last (by omega) (by omega)]
      split <;> simp [BitVec.ofNat_add]

/-- While no run was longer than two, the k-th read finishes the SAMPLE when it completes a run of three or is the 64th. -/
theorem Returns.reads_done_iff (h : Returns p s.startSample r 64) (hk : k ≤ 64) (hshort : ∀ j < k, runLength r j < 3) :
    (s.startSample.reads p k).sampleDone = true ↔ 3 ≤ runLength r k ∨ k = 64 := by
  have hle : runLength r k ≤ 3 := by
    cases k with
    | zero => exact Nat.zero_le 3
    | succ k => exact (runLength_succ_le r k).trans (hshort k k.lt_succ_self)
  rw [State.sampleDone_toNat, h.reads_run le_rfl hk, State.reads_iter, BitVec.toNat_ofNat, BitVec.toNat_ofNat]
  omega

/-- A SAMPLE ends at its first run of three, or at the 64th read. -/
theorem Returns.endsAt (h : Returns p s.startSample r 64) (hpos : 0 < k) (hk : k ≤ 64)
    (hshort : ∀ j < k, runLength r j < 3) (hend : 3 ≤ runLength r k ∨ k = 64) : s.startSample.EndsAt p k where
  pos := hpos
  finished := (h.reads_done_iff hk hshort).mpr hend
  going := fun j _ hj => by
    have hiff := h.reads_done_iff (k := j) (by omega) fun i hi => hshort i (by omega)
    rw [← Bool.not_eq_true, hiff]
    exact not_or.mpr ⟨not_le.mpr (hshort j hj), by omega⟩

/-- The first k of n scripted bytes are used up. -/
theorem drop_script (r : Nat → Byte) (rest : List Byte) (hk : k ≤ n) :
    ((List.range n).map (fun j => r (j + 1)) ++ rest).drop k =
      (List.range (n - k)).map (fun j => r (k + j + 1)) ++ rest := by
  obtain ⟨m, rfl⟩ := Nat.exists_eq_add_of_le hk
  rw [List.range_add, List.map_append, List.append_assoc, List.drop_left' (by simp)]
  simp [Function.comp_def]

theorem Returns.of_script (rest : List Byte) (h : s.answers = (List.range n).map (fun j => r (j + 1)) ++ rest) :
    Returns p s r n := by
  intro k hk
  obtain ⟨m, hm⟩ : ∃ m, n - k = m + 1 := Nat.exists_eq_add_one.mpr (by omega)
  refine State.nextByte_cons p _ _ ((List.range m).map (fun j => r (k + (j + 1) + 1)) ++ rest) ?_
  rw [State.reads_answers, h, drop_script r rest hk.le, hm, List.range_succ_eq_map]
  simp [Function.comp_def]

end

/-- Settles O16: the SAMPLE ends at the first run of three or at the 64th read, and its reads used up so many answers. -/
theorem sampleReturnsFirstStableByte : Obligations.SampleReturnsFirstStableByte := by
  intro p s r rest hans stable endsAt
  have hret : Returns p s.startSample r 64 := .of_script rest hans
  have hstable : ∀ k, k ≤ 64 → (3 ≤ runLength r k ↔ stable k) := fun k hk => by
    simp only [three_le_runLength_iff, stable, hk, true_and]
  have hends : ∀ k, 0 < k → k ≤ 64 → (∀ j < k, ¬ stable j) → (3 ≤ runLength r k ∨ k = 64) → endsAt k := by
    intro k hpos hk hfirst hend
    have hshort : ∀ j < k, runLength r j < 3 := fun j hj =>
      not_le.mp (mt (hstable j (by omega)).mp (hfirst j hj))
    have hall : s.sampleAll p = s.startSample.reads p k := (hret.endsAt hpos hk hshort hend).sampleAll hk
    have hlast : (s.sampleAll p).last = r k := by rw [hall, hret.reads_last hpos hk]
    have hiter : (s.sampleAll p).iter = BitVec.ofNat 7 k := by rw [hall, State.reads_iter]
    have htrace : (s.sampleAll p).trace = s.trace ++ (List.range k).map (fun j => .read p (r (j + 1))) := by
      rw [hall, hret.reads_trace hk, State.startSample_trace]
    have hanswers : (s.sampleAll p).answers = (List.range (64 - k)).map (fun j => r (k + j + 1)) ++ rest := by
      rw [hall, State.reads_answers, State.startSample_answers, hans, drop_script r rest hk]
    refine ⟨(s.sampleAll p).run, (s.sampleAll_eq p).trans ?_⟩
    rw [hlast, hiter, htrace, hanswers]
  refine ⟨fun k hk hfirst => ?_, fun hnone => hends 64 (by decide) le_rfl (fun j _ => hnone j) (.inr rfl)⟩
  have hthree : 3 ≤ k := hk.1
  have hlimit : k ≤ 64 := hk.2.1
  exact hends k (by omega) hlimit hfirst (.inl ((hstable k hlimit).mpr hk))

end Sys2Proof.Machine

/-! ### Steady lines (40_sampler.md R61 (a), 42_detect.md R65, 43_read3.md R68, 44_read6.md R71, 45_read.md R77)

Where every entry of a schedule is answered by one byte three times, a walk uses up those answers and leaves at each destination
the inverted byte of the entry that fills it. -/

namespace Sys2Proof.Machine

/-- What a line answers that is steady in each of several SAMPLEs: each byte three times. -/
def thrice (bs : List Byte) : List Byte := bs.flatMap fun b => [b, b, b]

/-- What a destination that held v holds after entries answered by the given bytes. -/
def filled (e : Dest) : List ((Level × Dest) × Byte) → Byte → Byte
  | [], v => v
  | ((_, d), b) :: xs, v => filled e xs (if e = d then inv b else v)

section
variable {p : Port} {s : State} {rest : List Byte} {b0 b1 b2 b3 b4 b5 b6 b7 : Byte}

theorem State.walk_steady (es : List (Level × Dest)) (bs : List Byte) (hlen : bs.length = es.length)
    (h : s.answers = thrice bs ++ rest) :
    (s.walk p es).answers = rest ∧
    ∀ e, e ≠ .discard → (s.walk p es).destByte e = filled e (es.zip bs) (s.destByte e) := by
  induction es generalizing s bs with
  | nil =>
    obtain rfl := List.eq_nil_of_length_eq_zero hlen
    exact ⟨h, fun _ _ => rfl⟩
  | cons x es ih =>
    obtain ⟨l, d⟩ := x
    obtain ⟨b, bs, rfl⟩ := List.exists_cons_of_length_eq_add_one hlen
    obtain ⟨hrest, hlast⟩ := s.strobeSample_steady p l d b (thrice bs ++ rest) h
    obtain ⟨hans, hdest⟩ := ih bs (Nat.succ.inj hlen) hrest
    refine ⟨hans, fun e he => ?_⟩
    rw [State.walk_cons, hdest e he, State.strobeSample_destByte l d e he, hlast, List.zip_cons_cons, filled]

/-! #### The four bodies -/

/-- DETECT classifies its fifth byte. -/
theorem State.detectBody_steady (h : s.answers = thrice [b0, b1, b2, b3, b4] ++ rest) :
    (s.detectBody p).devType = (classify (lowNibble (inv b4))).code ∧ (s.detectBody p).answers = rest := by
  obtain ⟨hans, hdest⟩ := State.walk_steady (p := p) (schedule .det) _ rfl h
  rw [State.detectBody_walk]
  generalize s.walk p (schedule .det) = t at hans hdest
  have hds : t.ds = inv b4 := hdest .ds (by decide)
  exact ⟨by rw [State.writeType_devType, hds], hans⟩

/-- READ3 decodes its second byte (the high phase) and its third (the low phase). -/
theorem State.read3Body_steady (h : s.answers = thrice [b0, b1, b2] ++ rest) :
    (s.read3Body p).devType = s.devType ∧ (s.read3Body p).result = dec3 (inv b1) (inv b2) ∧ (s.read3Body p).ext = 7 ∧
      (s.read3Body p).answers = rest := by
  obtain ⟨hans, hdest⟩ := State.walk_steady (p := p) (schedule .r3) _ rfl h
  rw [State.read3Body_walk, State.writeThree_devType, State.walk_devType]
  generalize s.walk p (schedule .r3) = t at hans hdest
  have hhigh : t.smp[1] = inv b1 := hdest (.smp 1) (by decide)
  have hlow : t.smp[0] = inv b2 := hdest (.smp 0) (by decide)
  exact ⟨rfl, by rw [State.writeThree_result, hhigh, hlow], rfl, hans⟩

/-- READ6 stores its second to seventh byte and decodes them. -/
theorem State.read6Body_steady (h : s.answers = thrice [b0, b1, b2, b3, b4, b5, b6, b7] ++ rest) :
    let samples : SampleBuffer := #v[inv b1, inv b2, inv b3, inv b4, inv b5, inv b6]
    (s.read6Body p).devType = s.devType ∧ (s.read6Body p).smp = samples ∧ (s.read6Body p).result = decodeSix samples ∧
      (s.read6Body p).ext = extCode (extSlot samples) ∧ (s.read6Body p).answers = rest := by
  intro samples
  obtain ⟨hans, hdest⟩ := State.walk_steady (p := p) (schedule .r6) _ rfl h
  rw [State.read6Body_walk, State.writeSix_devType, State.walk_devType]
  generalize s.walk p (schedule .r6) = t at hans hdest
  have hsample : ∀ i : Fin 6, t.smp[i] = samples[i] := fun i => by
    refine (hdest (.smp i) (by simp)).trans ?_
    fin_cases i <;> rfl
  have hsmp : t.smp = samples := Vector.ext fun i hi => hsample ⟨i, hi⟩
  exact ⟨rfl, hsmp, by rw [State.writeSix_result, hsmp], by rw [State.writeSix_ext, hsmp], hans⟩

end

theorem deviceType_code_eq_six (d : DeviceType) : d.code = DeviceType.six.code ↔ d = .six := by
  cases d <;> decide

/-- Settles O42: acceptance and completion touch no answer and no result, and READ's second part starts where DETECT's ended. -/
theorem steadyLinesAreDecoded : Obligations.SteadyLinesAreDecoded := by
  intro p s b0 b1 b2 b3 b4 b5 b6 b7 d0 d1 d2 d3 d4 rest hb det three six samples c
  have haccept : ∀ o, (s.accept o p).answers = s.answers := fun o => by rw [State.accept_idle o p s hb]
  simp only [State.transaction, State.body, State.complete_devType, State.complete_smp, State.complete_result,
    State.complete_ext, State.complete_answers]
  refine ⟨fun h => ?_, fun h => ?_, fun h => ?_, fun h hsix => ?_, fun h hsix => ?_⟩
  · exact State.detectBody_steady ((haccept .detect).trans h)
  · exact (State.read3Body_steady ((haccept .read3).trans h)).2
  · exact (State.read6Body_steady ((haccept .read6).trans h)).2
  · obtain ⟨htype, hans⟩ := State.detectBody_steady (p := p) ((haccept .read).trans h)
    have hbody := State.readBody_six p _ (htype.trans ((deviceType_code_eq_six c).mpr hsix))
    obtain ⟨hkept, hread6⟩ := State.read6Body_steady (p := p) hans
    rw [← hbody] at hkept hread6
    exact ⟨hkept.trans htype, hread6⟩
  · obtain ⟨htype, hans⟩ := State.detectBody_steady (p := p) ((haccept .read).trans h)
    have hbody := State.readBody_other p _ fun hcode => hsix ((deviceType_code_eq_six c).mp (htype.symm.trans hcode))
    obtain ⟨hkept, hread3⟩ := State.read3Body_steady (p := p) hans
    rw [← hbody] at hkept hread3
    exact ⟨hkept.trans htype, hread3⟩

end Sys2Proof.Machine

/-! ### SETSTROBE (41_strobe.md R63) -/

namespace Sys2Proof.Machine

/-- The frame of SETSTROBE: no register but the trace and the strobe outputs differs (R63). -/
theorem State.strobe_eq (p : Port) (l : Level) (s : State) :
    s.strobe p l = { s with
      trace := (s.strobe p l).trace, thA := (s.strobe p l).thA, thB := (s.strobe p l).thB
      thAHeld := (s.strobe p l).thAHeld, thBHeld := (s.strobe p l).thBHeld } := by
  cases p <;> rfl

/-- Settles O13: exec of SETSTROBE is `State.strobe`, whose output rules are read at the port itself and at the other one. -/
theorem setStrobeWritesOneCode : Obligations.SetStrobeWritesOneCode := by
  intro p l s
  have other : ∀ q, q ≠ p → (s.strobe p l).th q = s.th q ∧ (s.strobe p l).thHeld q = s.thHeld q :=
    fun q hq => ⟨by simp [hq], by simp [hq]⟩
  exact ⟨rfl, s.strobe p l, exec_setStrobe p l s, State.strobe_trace p l s, by simp, by simp, other, State.strobe_eq p l s⟩

end Sys2Proof.Machine

/-! ### Whole schedules, and DETECT (42_detect.md R65, R66)

What a walk leaves is read off from its entries: it adds its control writes to the bus, leaves the other port's line alone and
fills the destinations it names; its last entry decides LAST, the port's line and the last bus access. A command's steps walk
its first schedule, so the statement about DETECT is one about that walk and the classification that follows it. -/

namespace Sys2Proof.Machine

/-! #### The control writes of a trace -/

theorem busWrites_append (es fs : List BusEvent) : busWrites (es ++ fs) = busWrites es ++ busWrites fs :=
  List.filterMap_append

theorem busWrites_reads (p : Port) (vs : List Byte) : busWrites (vs.map (.read p)) = [] := by
  simp [busWrites]

/-- An entry's bus accesses hold its one code. -/
theorem busWrites_entry (p : Port) (c : Byte) (vs : List Byte) : busWrites (.write c :: vs.map (.read p)) = [c] :=
  congrArg (c :: ·) (busWrites_reads p vs)

/-! #### What a walk leaves -/

section
variable (p : Port) (es : List (Level × Dest)) (s : State)

theorem State.walk_trace_prefix : s.trace <+: (s.walk p es).trace := by
  induction es generalizing s with
  | nil => exact List.prefix_rfl
  | cons e es ih =>
    obtain ⟨⟨vs, hvs⟩, -⟩ := s.strobeSample_bus p e.1 e.2
    have hentry : s.trace <+: (s.strobeSample p e.1 e.2).trace := hvs ▸ List.prefix_append _ _
    exact hentry.trans (ih _)

/-- A walk writes its levels, in order, to its own port (30_encoding.md R52). -/
theorem State.walk_busWrites :
    busWrites (s.walk p es).trace = busWrites s.trace ++ (es.map Prod.fst).map (Config.code p) := by
  induction es generalizing s with
  | nil => exact (List.append_nil _).symm
  | cons e es ih =>
    obtain ⟨⟨vs, hvs⟩, -⟩ := s.strobeSample_bus p e.1 e.2
    rw [State.walk_cons, ih, hvs, busWrites_append, busWrites_entry, List.append_assoc]
    rfl

/-- A walk leaves the other port's line alone. -/
theorem State.walk_otherLine (q : Port) (hq : q ≠ p) :
    (s.walk p es).th q = s.th q ∧ (s.walk p es).thHeld q = s.thHeld q := by
  induction es generalizing s with
  | nil => exact ⟨rfl, rfl⟩
  | cons e es ih =>
    obtain ⟨-, -, hth, hheld⟩ := s.strobeSample_bus p e.1 e.2
    obtain ⟨ihth, ihheld⟩ := ih (s.strobeSample p e.1 e.2)
    exact ⟨ihth.trans (by simp [hth, hq]), ihheld.trans (by simp [hheld, hq])⟩

/-- A walk leaves every destination alone that none of its entries names. -/
theorem State.walk_destByte_of_notMem (d : Dest) (hd : d ≠ .discard) (hes : d ∉ es.map Prod.snd) :
    (s.walk p es).destByte d = s.destByte d := by
  induction es generalizing s with
  | nil => rfl
  | cons e es ih =>
    obtain ⟨hne, hrest⟩ := not_or.mp (mt List.mem_cons.mpr hes)
    rw [State.walk_cons, ih _ hrest, State.strobeSample_destByte e.1 e.2 d hd, if_neg hne]

/-- A walk none of whose entries names a sample leaves S alone. -/
theorem State.walk_smp (hes : ∀ i, .smp i ∉ es.map Prod.snd) : (s.walk p es).smp = s.smp :=
  Vector.ext fun i hi => State.walk_destByte_of_notMem p es s (.smp ⟨i, hi⟩) nofun (hes _)

theorem State.walk_concat (l : Level) (d : Dest) :
    s.walk p (es ++ [(l, d)]) = (s.walk p es).strobeSample p l d :=
  List.foldl_concat ..

/-- The last entry of a walk leaves the port's line at its level, and its SAMPLE made the last bus access. -/
theorem State.walk_concat_bus (l : Level) (d : Dest) :
    let u := s.walk p (es ++ [(l, d)])
    u.trace.getLast? = some (.read p u.last) ∧ u.th p = l ∧ u.thHeld p = true := by
  obtain ⟨-, hlast, hth, hheld⟩ := (s.walk p es).strobeSample_bus p l d
  rw [State.walk_concat]
  exact ⟨hlast, by simp [hth], by simp [hheld]⟩

/-- The last entry of a walk fills its destination with the inverted LAST. -/
theorem State.walk_concat_destByte (l : Level) (d : Dest) (hd : d ≠ .discard) :
    (s.walk p (es ++ [(l, d)])).destByte d = inv (s.walk p (es ++ [(l, d)])).last := by
  rw [State.walk_concat, State.strobeSample_destByte l d d hd, if_pos rfl]

end

/-! #### What acceptance and a position leave alone -/

@[simp] theorem State.atPos_th (q : Port) (g : Prog) (k : BitVec 3) (h : Phase) (s : State) :
    (s.atPos g k h).th q = s.th q := by cases q <;> rfl
@[simp] theorem State.atPos_thHeld (q : Port) (g : Prog) (k : BitVec 3) (h : Phase) (s : State) :
    (s.atPos g k h).thHeld q = s.thHeld q := by cases q <;> rfl

@[simp] theorem State.accept_trace (o : Op) (p : Port) (s : State) : (s.accept o p).trace = s.trace := by
  unfold State.accept; split <;> rfl
@[simp] theorem State.accept_th (q : Port) (o : Op) (p : Port) (s : State) : (s.accept o p).th q = s.th q := by
  unfold State.accept; split <;> cases q <;> rfl
@[simp] theorem State.accept_thHeld (q : Port) (o : Op) (p : Port) (s : State) :
    (s.accept o p).thHeld q = s.thHeld q := by
  unfold State.accept; split <;> cases q <;> rfl

/-! #### The steps of a command's first schedule -/

/-- An accepted command's steps walk its first schedule and come to the schedule's end (47_sequencer.md R82, R86). -/
theorem firstSchedule_stretch (o : Op) (p : Port) (s : State) (hb : s.busy = false) (hh : s.host = []) :
    let g := o.firstProg
    ∃ n, 4 * (schedule g).length ≤ n ∧ n ≤ 65 * (schedule g).length ∧
      Stretch n (s.accept o p) (((s.accept o p).walk p (schedule g)).atPos g (lastIx g) .rd).endOfSchedule := by
  intro g
  have haccept := State.accept_idle o p s hb
  have hstart : (s.accept o p).atPos g (BitVec.ofNat 3 0) .wr = s.accept o p := by rw [haccept]; rfl
  have hport : (s.accept o p).port = p := by rw [haccept]
  obtain ⟨n, hlow, hhigh, hst⟩ := schedule_stretch g (schedule g) 0 (s.accept o p) (by cases g <;> simp [schedule]) rfl
    (by rw [haccept]) (by rw [haccept]) (by rw [haccept]; exact hh)
  rw [hstart, hport, State.nextEntry_last _ (BitVec.lt_irrefl _)] at hst
  exact ⟨n, hlow, hhigh, hst⟩

/-! #### DETECT -/

/-- What DETECT's steps leave: the walk through DET from the accepted state, classified and completed (42_detect.md R65). -/
theorem detect_run (p : Port) (s : State) (hb : s.busy = false) (hh : s.host = []) :
    ∃ n, run n (s.accept .detect p) =
      .next (((s.accept .detect p).walk p (schedule .det)).atPos .det 4 .rd).writeType.complete := by
  obtain ⟨n, -, -, hrun, -⟩ := firstSchedule_stretch .detect p s hb hh
  have hop : (((s.accept .detect p).walk p (schedule .det)).atPos .det 4 .rd).op ≠ .read := by
    simp [State.atPos, State.accept_idle, hb]
  exact ⟨n, hrun.trans (congrArg _ (State.endOfSchedule_det _ rfl hop))⟩

/-- The frame of DETECT's walk: S is no destination of schedule DET. -/
theorem State.accept_walk_det_eq (p : Port) (s w : State) (hb : s.busy = false)
    (hw : (s.accept .detect p).walk p (schedule .det) = w) :
    w = { s with
      last := w.last, run := w.run, iter := w.iter, ds := w.ds, op := .detect, port := p
      prog := .det, stepIx := 0, ph := .wr, busy := true, done := false
      thA := w.thA, thB := w.thB, thAHeld := w.thAHeld, thBHeld := w.thBHeld
      trace := w.trace, answers := w.answers } := by
  have hwalk := State.walk_eq p (schedule .det) (s.accept .detect p)
  have hsmp := State.walk_smp p (schedule .det) (s.accept .detect p) (by simp [schedule])
  rw [hw] at hwalk hsmp
  rw [hsmp, State.accept_idle .detect p s hb] at hwalk
  exact hwalk

/-- Settles O38: DETECT's steps walk schedule DET, whose last entry fills DS and leaves the line low. -/
theorem detectClassifiesTheFifthSample : Obligations.DetectClassifiesTheFifthSample := by
  intro p s hb hh
  obtain ⟨n, hrun⟩ := detect_run p s hb hh
  refine ⟨_, n, _, exec_detect p s, hrun, ?_⟩
  have hsplit : schedule .det = (schedule .det).take 4 ++ [(.low, .ds)] := rfl
  have hds := State.walk_concat_destByte p ((schedule .det).take 4) (s.accept .detect p) .low .ds nofun
  have hbus := State.walk_concat_bus p ((schedule .det).take 4) (s.accept .detect p) .low .ds
  have hother := State.walk_otherLine p (schedule .det) (s.accept .detect p)
  have hprefix := State.walk_trace_prefix p (schedule .det) (s.accept .detect p)
  have hwrites := State.walk_busWrites p (schedule .det) (s.accept .detect p)
  rw [← hsplit] at hds hbus
  rw [State.accept_trace] at hprefix hwrites
  simp only [State.accept_th, State.accept_thHeld] at hother
  generalize hw : (s.accept .detect p).walk p (schedule .det) = w at *
  have hframe := State.accept_walk_det_eq p s w hb hw
  obtain ⟨hlast, hth, hheld⟩ := hbus
  refine ⟨hds, hlast, rfl, by simpa using hth, by simpa using hheld, by simpa using hother, hprefix, hwrites, ?_⟩
  rw [hframe]
  rfl

/-! #### CLASSIFY -/

/-- Both upper bits are set in the nibbles from 0xC on. -/
theorem upperBits_set_iff (n : Nibble) : n &&& 0xC#4 = 0xC#4 ↔ 0xC ≤ n.toNat := by
  revert n; decide

/-- Settles O17: the test for Six comes first, and the one for Three after it says which nibbles are left for Legacy2. -/
theorem classifyByNibble : Obligations.ClassifyByNibble := by
  intro n
  by_cases hsix : n = 0xF#4
  · subst hsix; decide
  by_cases hthree : n &&& 0xC#4 = 0xC#4
  · have hle := (upperBits_set_iff n).mp hthree
    simp [classify, hsix, hthree, hle]
  · have hlt := not_le.mp (mt (upperBits_set_iff n).mpr hthree)
    simp [classify, hsix, hthree, hlt]

end Sys2Proof.Machine

/-! ### DEC3, and READ3 (43_read3.md R68 to R70)

DEC3 is read off flag by flag from the packing; eight flags come from eight different bits of the two samples, so they are
free. READ3's steps walk schedule R3: its last two entries fill S[1] and S[0], which it then decodes. -/

namespace Sys2Proof.Machine

/-! #### DEC3 -/

/-- Settles O18: bits 0 to 7 are flags of the packing, and without an extended slot bits 8 to 11 are clear. -/
theorem threeButtonDecode : Obligations.ThreeButtonDecode := by
  intro sh sl
  obtain ⟨-, -, -, -, hstart, hc, hb, ha, hright, hleft, hdown, hup⟩ :=
    packButtons_bits (decodeButtons sl sh false false false false)
  exact ⟨hup, hdown, hleft, hright, ha, hb, hc, hstart, packButtons_noExtended sl sh⟩

/-- The four extended flags are clear in the states below 256. -/
theorem extendedFlags_eq_zero_iff (v : NormalizedState) : v.extractLsb' 8 4 = 0 ↔ v.toNat < 256 := by
  have hv := v.isLt
  rw [← BitVec.toNat_inj, BitVec.extractLsb'_toNat, Nat.shiftRight_eq_div_pow]
  simp only [BitVec.ofNat_eq_ofNat, BitVec.toNat_ofNat]
  omega

/-- The extended flags and the eight others make up a state. -/
theorem eq_of_extendedFlags_of_bits (u v : NormalizedState) (hext : u.extractLsb' 8 4 = v.extractLsb' 8 4)
    (hbits : ∀ i < 8, u.getLsbD i = v.getLsbD i) : u = v := by
  refine BitVec.eq_of_getLsbD_eq fun i hi => ?_
  by_cases hlow : i < 8
  · exact hbits i hlow
  · have h := congrArg (·.getLsbD (i - 8)) hext
    simpa [show i - 8 < 4 by omega, show 8 + (i - 8) = i by omega] using h

/-- A low-phase sample that shows the flags A and Start of a state, in bits 5 and 6. -/
def lowSampleOf (v : NormalizedState) : Byte := 0#1 ++ v.extractLsb' 7 1 ++ v.extractLsb' 4 1 ++ 0#5

theorem lowSampleOf_bits (v : NormalizedState) :
    (lowSampleOf v).getLsbD 5 = v.getLsbD 4 ∧ (lowSampleOf v).getLsbD 6 = v.getLsbD 7 := by
  constructor <;> simp only [lowSampleOf, BitVec.getLsbD_append, BitVec.getLsbD_extractLsb'] <;> simp

/-- DEC3 gives every state without extended flags: as high-phase sample its own low byte serves. -/
theorem dec3_lowSampleOf (v : NormalizedState) (hv : v.extractLsb' 8 4 = 0) :
    dec3 (v.setWidth 8) (lowSampleOf v) = v := by
  obtain ⟨hup, hdown, hleft, hright, ha, hb, hc, hstart, hext⟩ := threeButtonDecode (v.setWidth 8) (lowSampleOf v)
  obtain ⟨hA, hStart⟩ := lowSampleOf_bits v
  have hlow : ∀ i < 8, (v.setWidth 8).getLsbD i = v.getLsbD i := fun i hi => by simp [hi]
  refine eq_of_extendedFlags_of_bits _ _ (hext.trans hv.symm) fun i hi => ?_
  rw [← hlow i hi]
  interval_cases i
  · exact hup
  · exact hdown
  · exact hleft
  · exact hright
  · exact ha.trans (hA.trans (hlow 4 hi).symm)
  · exact hb
  · exact hc
  · exact hstart.trans (hStart.trans (hlow 7 hi).symm)

/-- Settles O19: DEC3 leaves the extended flags clear, and `lowSampleOf` names samples for every such state. -/
theorem threeButtonFlagsAreFree : Obligations.ThreeButtonFlagsAreFree := by
  intro v
  rw [← extendedFlags_eq_zero_iff]
  constructor
  · rintro ⟨sh, sl, rfl⟩
    exact packButtons_noExtended sl sh
  · exact fun hv => ⟨_, _, dec3_lowSampleOf v hv⟩

/-! #### READ3 -/

/-- What READ3's steps leave: the walk through R3 from the accepted state, decoded and completed (43_read3.md R68). -/
theorem read3_run (p : Port) (s : State) (hb : s.busy = false) (hh : s.host = []) :
    ∃ n, run n (s.accept .read3 p) =
      .next (((s.accept .read3 p).walk p (schedule .r3)).atPos .r3 2 .rd).writeThree.complete := by
  obtain ⟨n, -, -, hrun, -⟩ := firstSchedule_stretch .read3 p s hb hh
  exact ⟨n, hrun.trans (congrArg _ (State.endOfSchedule_r3 _ rfl))⟩

/-- The frame of a walk from acceptance none of whose entries names DS. -/
theorem State.accept_walk_eq_of_noDs (o : Op) (p : Port) (es : List (Level × Dest)) (s w : State) (hb : s.busy = false)
    (hes : .ds ∉ es.map Prod.snd) (hw : (s.accept o p).walk p es = w) :
    w = { s with
      last := w.last, run := w.run, iter := w.iter, smp := w.smp, op := o, port := p
      prog := o.firstProg, stepIx := 0, ph := .wr, busy := true, done := false
      thA := w.thA, thB := w.thB, thAHeld := w.thAHeld, thBHeld := w.thBHeld
      trace := w.trace, answers := w.answers } := by
  have hwalk := State.walk_eq p es (s.accept o p)
  have hds : ((s.accept o p).walk p es).ds = (s.accept o p).ds :=
    State.walk_destByte_of_notMem p es (s.accept o p) .ds nofun hes
  rw [hw] at hwalk hds
  rw [hds, State.accept_idle o p s hb] at hwalk
  exact hwalk

/-- An accepted command's walk keeps every sample that its entries do not name. -/
theorem State.accept_walk_sample (o : Op) (p : Port) (es : List (Level × Dest)) (s : State) (hb : s.busy = false)
    (i : Fin 6) (hes : .smp i ∉ es.map Prod.snd) : ((s.accept o p).walk p es).smp[i] = s.smp[i] := by
  have hwalk := State.walk_destByte_of_notMem p es (s.accept o p) (.smp i) nofun hes
  rw [State.accept_idle o p s hb] at hwalk ⊢
  exact hwalk

/-- Settles O39: READ3's steps walk schedule R3, whose last entry fills S[0] and leaves the line low. -/
theorem readThreeDecodesTwoSamples : Obligations.ReadThreeDecodesTwoSamples := by
  intro p s hb hh
  obtain ⟨n, hrun⟩ := read3_run p s hb hh
  refine ⟨_, n, _, exec_read3 p s, hrun, ?_⟩
  have hsplit : schedule .r3 = (schedule .r3).take 2 ++ [(.low, .smp 0)] := rfl
  have hlow := State.walk_concat_destByte p ((schedule .r3).take 2) (s.accept .read3 p) .low (.smp 0) nofun
  have hbus := State.walk_concat_bus p ((schedule .r3).take 2) (s.accept .read3 p) .low (.smp 0)
  have hkept : ∀ i : Fin 6, 2 ≤ i → ((s.accept .read3 p).walk p (schedule .r3)).smp[i] = s.smp[i] := fun i hi =>
    State.accept_walk_sample .read3 p (schedule .r3) s hb i (by revert i; decide)
  have hother := State.walk_otherLine p (schedule .r3) (s.accept .read3 p)
  have hprefix := State.walk_trace_prefix p (schedule .r3) (s.accept .read3 p)
  have hwrites := State.walk_busWrites p (schedule .r3) (s.accept .read3 p)
  rw [← hsplit] at hlow hbus
  rw [State.accept_trace] at hprefix hwrites
  simp only [State.accept_th, State.accept_thHeld] at hother
  generalize hw : (s.accept .read3 p).walk p (schedule .r3) = w at *
  have hframe := State.accept_walk_eq_of_noDs .read3 p (schedule .r3) s w hb (by decide) hw
  obtain ⟨hlast, hth, hheld⟩ := hbus
  refine ⟨hlow, hlast, rfl, rfl, by simpa using hth, by simpa using hheld, hkept, by simpa using hother, hprefix,
    hwrites, ?_⟩
  rw [hframe]
  rfl

end Sys2Proof.Machine

/-! ### EXTSLOT, MERGE and DEC6, and READ6 (44_read6.md R71 to R75)

EXTSLOT is a search along the candidates, so it says of each candidate whether the earlier ones fail. MERGE is an OR, read bit
by bit; DEC6 is read off flag by flag from the packing, and its extended flags are the bits of the slot's low nibble. READ6's
steps walk schedule R6, whose last entry leaves the line high and is discarded. -/

namespace Sys2Proof.Machine

/-! #### EXTSLOT -/

theorem qualifies_iff (S : SampleBuffer) (i : Fin 6) :
    qualifies S i = true ↔ lowNibble S[i] ≠ lowNibble S[1] ∧ lowNibble S[i] ≠ 0xF#4 := by
  simp [qualifies]

/-- Settles O20: the search stops at the first candidate that qualifies. -/
theorem extendedSlotIsFirstCandidate : Obligations.ExtendedSlotIsFirstCandidate := by
  intro S q
  have hq : ∀ i, q i ↔ qualifies S i = true := fun i => (qualifies_iff S i).symm
  simp only [hq, extSlot, candidates]
  by_cases h4 : qualifies S 4 = true
  · simp [h4]
  by_cases h2 : qualifies S 2 = true
  · simp [h4, h2]
  by_cases h5 : qualifies S 5 = true
  · simp [h4, h2, h5]
  by_cases h3 : qualifies S 3 = true
  · simp [h4, h2, h5, h3]
  · simp [h4, h2, h5, h3]

/-! #### MERGE -/

/-- A fold of ORs has the bits of its start and of what it meets. -/
theorem foldl_or_getLsbD (S : SampleBuffer) (is : List (Fin 6)) (acc : Byte) (b : Nat) :
    (is.foldl (fun acc i => acc ||| S[i]) acc).getLsbD b = true ↔
      acc.getLsbD b = true ∨ ∃ i ∈ is, S[i].getLsbD b = true := by
  induction is generalizing acc with
  | nil => simp
  | cons i is ih =>
    rw [List.foldl_cons, ih, BitVec.getLsbD_or, Bool.or_eq_true, or_assoc, List.exists_mem_cons_iff]

/-- The OR of the samples has the bits of those that are not the slot. -/
theorem orExcept_getLsbD (S : SampleBuffer) (e : Option (Fin 6)) (is : List (Fin 6)) (b : Nat) :
    (orExcept S e is).getLsbD b = true ↔ ∃ i ∈ is, e ≠ some i ∧ S[i].getLsbD b = true := by
  rw [orExcept, foldl_or_getLsbD]
  simp [and_assoc]

/-- Settles O21: both bytes are such an OR, over the indices of their phase. -/
theorem mergeOrsThePhases : Obligations.MergeOrsThePhases := by
  intro S e b
  have hlow := orExcept_getLsbD S e [0, 2, 4] b
  have hhigh := orExcept_getLsbD S e [1, 3, 5] b
  simp only [List.mem_cons, List.not_mem_nil, or_false] at hlow hhigh
  exact ⟨hlow, hhigh⟩

/-- Without a slot, the OR of equal samples is that sample. -/
theorem orExcept_none_of_eq (S : SampleBuffer) (v : Byte) (is : List (Fin 6)) (hne : is ≠ [])
    (hS : ∀ i ∈ is, S[i] = v) : orExcept S none is = v := by
  obtain ⟨j, hj⟩ := List.exists_mem_of_ne_nil is hne
  refine BitVec.eq_of_getLsbD_eq fun b _ => Bool.eq_iff_iff.mpr ((orExcept_getLsbD S none is b).trans ⟨?_, ?_⟩)
  · rintro ⟨i, hi, -, hb⟩
    exact hS i hi ▸ hb
  · exact fun hb => ⟨j, hj, nofun, (hS j hj).symm ▸ hb⟩

/-! #### DEC6 -/

/-- Without a slot DEC6 is DEC3 (43_read3.md R69, 44_read6.md R74). -/
theorem dec6_none (th0 th1 : Byte) (S : SampleBuffer) : dec6 th0 th1 S none = dec3 th1 th0 := rfl

/-- Settles O22: without a slot these are the flags of DEC3, and with one they are read off from the packing. -/
theorem sixButtonDecode : Obligations.SixButtonDecode := by
  intro th0 th1 S e
  cases e with
  | none =>
    obtain ⟨h0, h1, h2, h3, h4, h5, h6, h7, hext⟩ := threeButtonDecode th1 th0
    exact ⟨h0, h1, h2, h3, h4, h5, h6, h7, fun _ => hext, nofun⟩
  | some i =>
    obtain ⟨hmode, hz, hy, hx, hstart, hc, hb, ha, hright, hleft, hdown, hup⟩ :=
      packButtons_bits (decodeButtons th0 th1 (S[i].getLsbD 3) (S[i].getLsbD 0) (S[i].getLsbD 1) (S[i].getLsbD 2))
    refine ⟨hup, hdown, hleft, hright, ha, hb, hc, hstart, nofun, ?_⟩
    rintro _ ⟨⟩
    exact ⟨hz, hy, hx, hmode⟩

theorem lowNibble_getLsbD (v : Byte) (i : Nat) (hi : i < 4) : (lowNibble v).getLsbD i = v.getLsbD i := by
  simp [lowNibble, hi]

/-- The extended flags are bits 3, 0, 1 and 2 of the slot's low nibble (44_read6.md R74). -/
theorem dec6_extended (th0 th1 : Byte) (S : SampleBuffer) (i : Fin 6) :
    let n := lowNibble S[i]
    (dec6 th0 th1 S (some i)).extractLsb' 8 4 =
      BitVec.ofBool (n.getLsbD 3) ++ BitVec.ofBool (n.getLsbD 0) ++ BitVec.ofBool (n.getLsbD 1) ++
        BitVec.ofBool (n.getLsbD 2) := by
  simp only [lowNibble_getLsbD, Nat.reduceLT]
  exact packButtons_extended _

/-! #### The 6-button decode -/

theorem decodeSix_of_slot (S : SampleBuffer) (e : Option (Fin 6)) (he : extSlot S = e) :
    decodeSix S = dec6 (merge S e).1 (merge S e).2 S e := by
  rw [← he]; rfl

/-- Settles O23: the flags are all set only for the sentinel, which no slot's nibble is; EXTSLOT gives the slot of the other
two clauses. -/
theorem extendedFlagsFollowTheSlot : Obligations.ExtendedFlagsFollowTheSlot := by
  intro S
  obtain ⟨hfour, -, -, -, hnone⟩ := extendedSlotIsFirstCandidate S
  refine ⟨(resultLegal_decodeSix S).notAll, fun hall => ?_, fun h4 h1 => ?_⟩
  · have hfails : ∀ i : Fin 6, i = 2 ∨ i = 3 ∨ i = 4 ∨ i = 5 →
        ¬ (lowNibble S[i] ≠ lowNibble S[1] ∧ lowNibble S[i] ≠ 0xF#4) := fun i hi h => (hall i hi).elim h.1 h.2
    have hslot : extSlot S = none :=
      hnone.mpr ⟨hfails 4 (by decide), hfails 2 (by decide), hfails 5 (by decide), hfails 3 (by decide)⟩
    refine ⟨hslot, ?_⟩
    rw [decodeSix_of_slot S none hslot]
    exact packButtons_noExtended _ _
  · have hslot : extSlot S = some 4 := hfour.mpr ⟨fun h => h1 (h.symm.trans h4), h4 ▸ by decide⟩
    refine ⟨hslot, ?_⟩
    have hnibble : lowNibble S[(4 : Fin 6)] = 0b0101#4 := h4
    rw [decodeSix_of_slot S _ hslot, dec6_extended, hnibble]
    decide

/-- Settles O24: each merged byte is its phase's one sample, and without a slot DEC6 is DEC3. -/
theorem noSlotDecodesAsThree : Obligations.NoSlotDecodesAsThree := by
  intro S hslot h02 h24 h13 h35
  have hlow : orExcept S none [0, 2, 4] = S[0] := orExcept_none_of_eq S _ _ nofun (by simp [h02, h24])
  have hhigh : orExcept S none [1, 3, 5] = S[1] := orExcept_none_of_eq S _ _ nofun (by simp [h13, h35])
  rw [decodeSix_of_slot S none hslot, dec6_none, merge, hlow, hhigh]

/-! #### READ6 -/

/-- What READ6's steps leave: the walk through R6 from the accepted state, decoded and completed (44_read6.md R71). -/
theorem read6_run (p : Port) (s : State) (hb : s.busy = false) (hh : s.host = []) :
    ∃ n, run n (s.accept .read6 p) =
      .next (((s.accept .read6 p).walk p (schedule .r6)).atPos .r6 7 .rd).writeSix.complete := by
  obtain ⟨n, -, -, hrun, -⟩ := firstSchedule_stretch .read6 p s hb hh
  exact ⟨n, hrun.trans (congrArg _ (State.endOfSchedule_r6 _ rfl))⟩

/-- Settles O40: READ6's steps walk schedule R6, whose last entry is discarded and leaves the line high. -/
theorem readSixDecodesSixSamples : Obligations.ReadSixDecodesSixSamples := by
  intro p s hb hh
  obtain ⟨n, hrun⟩ := read6_run p s hb hh
  refine ⟨_, n, _, exec_read6 p s, hrun, ?_⟩
  have hsplit : schedule .r6 = (schedule .r6).take 7 ++ [(.high, .discard)] := rfl
  have hbus := State.walk_concat_bus p ((schedule .r6).take 7) (s.accept .read6 p) .high .discard
  have hother := State.walk_otherLine p (schedule .r6) (s.accept .read6 p)
  have hprefix := State.walk_trace_prefix p (schedule .r6) (s.accept .read6 p)
  have hwrites := State.walk_busWrites p (schedule .r6) (s.accept .read6 p)
  rw [← hsplit] at hbus
  rw [State.accept_trace] at hprefix hwrites
  simp only [State.accept_th, State.accept_thHeld] at hother
  generalize hw : (s.accept .read6 p).walk p (schedule .r6) = w at *
  have hframe := State.accept_walk_eq_of_noDs .read6 p (schedule .r6) s w hb (by decide) hw
  obtain ⟨-, hth, hheld⟩ := hbus
  refine ⟨rfl, rfl, by simpa using hth, by simpa using hheld, by simpa using hother, hprefix, hwrites, ?_⟩
  rw [hframe]
  rfl

end Sys2Proof.Machine

/-! ### READ (45_read.md R77, R78)

TYPE is written between the two schedules of READ, but no entry of the second one reads or fills DS, so it might as well be
written at the end: READ is one walk through both schedules, then the classification, then the decoding. Against DETECT and a
separate decoder the two blocks have the same bus record and the same coming answers at the start of each part. -/

namespace Sys2Proof.Machine

/-! #### The classification may wait for the second schedule -/

theorem State.sampleLoop_writeType (p : Port) (n : Nat) (s : State) :
    s.writeType.sampleLoop p n = (s.sampleLoop p n).writeType := by
  induction n generalizing s with
  | zero => rfl
  | succ n ih =>
    have hread : s.writeType.sampleRead p = (s.sampleRead p).writeType := rfl
    have hdone : (s.sampleRead p).writeType.sampleDone = (s.sampleRead p).sampleDone := rfl
    simp only [State.sampleLoop, hread, hdone, ih]
    split <;> rfl

theorem State.strobeSample_writeType (p : Port) (l : Level) (d : Dest) (hd : d ≠ .ds) (s : State) :
    s.writeType.strobeSample p l d = (s.strobeSample p l d).writeType := by
  have hstart : (s.writeType.strobe p l).startSample = ((s.strobe p l).startSample).writeType := by cases p <;> rfl
  simp only [State.strobeSample, State.sampleAll, hstart, State.sampleLoop_writeType]
  cases d with
  | ds => exact absurd rfl hd
  | discard => rfl
  | smp i => rfl

theorem State.walk_writeType (p : Port) (es : List (Level × Dest)) (hes : .ds ∉ es.map Prod.snd) (s : State) :
    s.writeType.walk p es = (s.walk p es).writeType := by
  induction es generalizing s with
  | nil => rfl
  | cons e es ih =>
    obtain ⟨hne, hrest⟩ := not_or.mp (mt List.mem_cons.mpr hes)
    rw [State.walk_cons, State.strobeSample_writeType p e.1 e.2 (Ne.symm hne) s, ih hrest]
    rfl

theorem State.walk_append (p : Port) (es fs : List (Level × Dest)) (s : State) :
    s.walk p (es ++ fs) = (s.walk p es).walk p fs :=
  List.foldl_append

/-- The schedule that follows the classification is R6 for Six and R3 for the other types (R77). -/
theorem State.decodeProg_writeType (s : State) :
    (classify (lowNibble s.ds) = .six ∧ s.writeType.decodeProg = .r6) ∨
    (classify (lowNibble s.ds) ≠ .six ∧ s.writeType.decodeProg = .r3) := by
  by_cases hsix : classify (lowNibble s.ds) = .six
  · exact .inl ⟨hsix, if_pos ((deviceType_code_eq_six _).mpr hsix)⟩
  · exact .inr ⟨hsix, if_neg (mt (deviceType_code_eq_six _).mp hsix)⟩

/-- A schedule that follows the classification does not fill DS. -/
theorem State.ds_notMem_decodeProg (s : State) : .ds ∉ (schedule s.decodeProg).map Prod.snd := by
  unfold State.decodeProg
  split <;> decide

/-! #### The steps of READ -/

/-- A block that enters a schedule walks it and comes to its end (47_sequencer.md R86). -/
theorem enter_stretch (g : Prog) (s : State) (hb : s.busy = true) (hd : s.done = false) (hh : s.host = []) :
    ∃ n, 4 * (schedule g).length ≤ n ∧ n ≤ 65 * (schedule g).length ∧
      Stretch n (s.enter g) ((s.walk s.port (schedule g)).atPos g (lastIx g) .rd).endOfSchedule := by
  have hst := schedule_stretch g (schedule g) 0 s (by cases g <;> simp [schedule]) rfl hb hd hh
  rw [State.nextEntry_last _ (BitVec.lt_irrefl _)] at hst
  exact hst

/-- What READ's steps leave: one walk through DET and the schedule that TYPE chose, classified, and then that schedule's end
(47_sequencer.md R87). -/
theorem read_stretch (p : Port) (s : State) (hb : s.busy = false) (hh : s.host = []) :
    let a := s.accept .read p
    let g := (a.walk p (schedule .det)).writeType.decodeProg
    let es := schedule .det ++ schedule g
    ∃ n, 4 * es.length ≤ n ∧ n ≤ 65 * es.length ∧
      Stretch n a ((a.walk p es).writeType.atPos g (lastIx g) .rd).endOfSchedule := by
  intro a g es
  have haccept : a = _ := State.accept_idle .read p s hb
  obtain ⟨n, (hlow : 4 * (schedule .det).length ≤ n), (hhigh : n ≤ 65 * (schedule .det).length), hdet⟩ :=
    firstSchedule_stretch .read p s hb hh
  have hend : ((a.walk p (schedule .det)).atPos .det 4 .rd).endOfSchedule =
      (a.walk p (schedule .det)).writeType.enter g :=
    State.endOfSchedule_read _ rfl (by simp [State.atPos, haccept])
  obtain ⟨m, hlow', hhigh', hdec⟩ := enter_stretch g (a.walk p (schedule .det)).writeType
    (by simp [haccept]) (by simp [haccept]) (by simpa [haccept] using hh)
  have hport : (a.walk p (schedule .det)).writeType.port = p := by simp [haccept]
  rw [hport, State.walk_writeType p (schedule g) (State.ds_notMem_decodeProg _), ← State.walk_append] at hdec
  have hlen : es.length = (schedule .det).length + (schedule g).length := List.length_append
  have hfirst : Stretch n a ((a.walk p (schedule .det)).writeType.enter g) := hend ▸ hdet
  exact ⟨n + m, by omega, by omega, hfirst.trans hdec⟩

/-! #### What READ leaves -/

/-- A walk that ends with a whole schedule leaves the port's line at the level of the schedule's last entry. -/
theorem State.walk_append_schedule_line (p : Port) (es : List (Level × Dest)) (g : Prog) (s : State) :
    (s.walk p (es ++ schedule g)).th p = (entry g (lastIx g)).1 ∧ (s.walk p (es ++ schedule g)).thHeld p = true := by
  have hsplit : schedule g = (schedule g).dropLast ++ [entry g (lastIx g)] := by cases g <;> rfl
  rw [hsplit, ← List.append_assoc]
  exact (s.walk_concat_bus p (es ++ (schedule g).dropLast) _ _).2

/-- The frame of a walk from acceptance. -/
theorem State.accept_walk_eq (o : Op) (p : Port) (es : List (Level × Dest)) (s w : State) (hb : s.busy = false)
    (hw : (s.accept o p).walk p es = w) :
    w = { s with
      last := w.last, run := w.run, iter := w.iter, smp := w.smp, ds := w.ds, op := o, port := p
      prog := o.firstProg, stepIx := 0, ph := .wr, busy := true, done := false
      thA := w.thA, thB := w.thB, thAHeld := w.thAHeld, thBHeld := w.thBHeld
      trace := w.trace, answers := w.answers } := by
  have hwalk := State.walk_eq p es (s.accept o p)
  rw [hw, State.accept_idle o p s hb] at hwalk
  exact hwalk

/-- Settles O41: READ's steps are one walk through DET and the chosen schedule; its DS is DET's, so the classification at its
end is the one that chose the schedule. -/
theorem readDetectsThenDecodes : Obligations.ReadDetectsThenDecodes := by
  intro p s hb hh
  obtain ⟨n, -, -, hrun, -⟩ := read_stretch p s hb hh
  refine ⟨_, n, _, exec_read p s, hrun, ?_⟩
  have hchoice := ((s.accept .read p).walk p (schedule .det)).decodeProg_writeType
  have hnods := ((s.accept .read p).walk p (schedule .det)).writeType.ds_notMem_decodeProg
  generalize hg : ((s.accept .read p).walk p (schedule .det)).writeType.decodeProg = g at *
  have hds : ((s.accept .read p).walk p (schedule .det ++ schedule g)).ds =
      ((s.accept .read p).walk p (schedule .det)).ds := by
    rw [State.walk_append]
    exact State.walk_destByte_of_notMem p (schedule g) _ .ds nofun hnods
  rw [← hds] at hchoice
  have hkept : ∀ i : Fin 6, .smp i ∉ (schedule .det ++ schedule g).map Prod.snd →
      ((s.accept .read p).walk p (schedule .det ++ schedule g)).smp[i] = s.smp[i] := fun i =>
    State.accept_walk_sample .read p (schedule .det ++ schedule g) s hb i
  have hline := State.walk_append_schedule_line p (schedule .det) g (s.accept .read p)
  have hother := State.walk_otherLine p (schedule .det ++ schedule g) (s.accept .read p)
  have hprefix := State.walk_trace_prefix p (schedule .det ++ schedule g) (s.accept .read p)
  have hwrites := State.walk_busWrites p (schedule .det ++ schedule g) (s.accept .read p)
  rw [State.accept_trace] at hprefix hwrites
  simp only [State.accept_th, State.accept_thHeld] at hother
  generalize hw : (s.accept .read p).walk p (schedule .det ++ schedule g) = w at *
  have hframe := State.accept_walk_eq .read p (schedule .det ++ schedule g) s w hb hw
  obtain ⟨hth, hheld⟩ := hline
  obtain ⟨hsix, rfl⟩ | ⟨hne, rfl⟩ := hchoice
  · rw [State.endOfSchedule_r6 _ rfl]
    have hhigh : w.th p = .high := hth
    refine ⟨rfl, fun _ => ⟨rfl, rfl, by simpa using hhigh, hwrites⟩, fun hne => absurd hsix hne, by simpa using hheld,
      by simpa using hother, hprefix, ?_⟩
    rw [hframe]
    rfl
  · rw [State.endOfSchedule_r3 _ rfl]
    have hlow : w.th p = .low := hth
    refine ⟨rfl, fun hsix => absurd hsix hne, fun _ => ⟨rfl, rfl, by simpa using hlow,
      fun i hi => hkept i (by revert i; decide), hwrites⟩, by simpa using hheld, by simpa using hother, hprefix, ?_⟩
    rw [hframe]
    rfl

/-! #### READ against DETECT and a separate decoder -/

section
variable {s t : State} (p : Port)

theorem State.body_otherLine (o : Op) (q : Port) (hq : q ≠ p) (s : State) : (s.body o p).th q = s.th q := by
  have hdet : ∀ s : State, (s.detectBody p).th q = s.th q := fun s => by
    rw [State.detectBody_walk, State.writeType_th, (s.walk_otherLine p _ q hq).1]
  have hread3 : ∀ s : State, (s.read3Body p).th q = s.th q := fun s => by
    rw [State.read3Body_walk, State.writeThree_th, (s.walk_otherLine p _ q hq).1]
  have hread6 : ∀ s : State, (s.read6Body p).th q = s.th q := fun s => by
    rw [State.read6Body_walk, State.writeSix_th, (s.walk_otherLine p _ q hq).1]
  cases o with
  | detect => exact hdet s
  | read3 => exact hread3 s
  | read6 => exact hread6 s
  | read =>
    by_cases hsix : (s.detectBody p).devType = DeviceType.six.code
    · rw [State.body, State.readBody_six p s hsix, hread6, hdet]
    · rw [State.body, State.readBody_other p s hsix, hread3, hdet]

/-- A transaction leaves the other port's line alone. -/
theorem State.transaction_otherLine (o : Op) (q : Port) (hq : q ≠ p) (s : State) :
    (s.transaction o p).th q = s.th q := by
  rw [State.transaction, State.complete_th, State.body_otherLine p o q hq, State.accept_th]

/-- A body keeps TYPE and DS equal: it fills them or leaves them alone. -/
theorem SameType.body (hd : SameType s t) (h : SameEnv s t) (o : Op) : SameType (s.body o p) (t.body o p) := by
  cases o with
  | detect => exact h.detectBody.2
  | read3 => exact hd.read3Body h
  | read6 => exact hd.read6Body h
  | read => exact h.readBody.2.1

theorem State.accept_sameEnv (o : Op) (s : State) : SameEnv (s.accept o p) s := by
  unfold State.accept
  split <;> exact ⟨rfl, rfl⟩

theorem SameEnv.accept_right (h : SameEnv s t) (o : Op) : SameEnv s (t.accept o p) := by
  unfold State.accept
  split <;> exact ⟨h.trace, h.answers⟩

theorem SameType.accept_right (h : SameType s t) (o : Op) : SameType s (t.accept o p) := by
  unfold State.accept
  split <;> exact ⟨h.devType, h.ds⟩

theorem SameEnv.complete_right (h : SameEnv s t) : SameEnv s t.complete := ⟨h.trace, h.answers⟩

theorem SameType.complete_right (h : SameType s t) : SameType s t.complete := ⟨h.devType, h.ds⟩

theorem SameLine.complete_both (h : SameLine p s t) : SameLine p s.complete t.complete :=
  ⟨⟨h.trace, h.answers⟩, by simpa using h.th, h.last⟩

/-- READ's detect part leaves what a DETECT of its own leaves. -/
theorem State.readDetect_transaction (s : State) :
    let a := (s.accept .read p).detectBody p
    let d := s.transaction .detect p
    SameEnv a d ∧ SameType a d := by
  have hstart : SameEnv (s.accept .read p) (s.accept .detect p) := (s.accept_sameEnv p .read).accept_right p .detect
  obtain ⟨hline, htype⟩ := hstart.detectBody (p := p)
  exact ⟨hline.toSameEnv.complete_right, htype.complete_right⟩

/-- READ's decode part leaves what a decoder command of its own leaves. -/
theorem SameEnv.body_transaction (h : SameEnv s t) (hd : SameType s t) (o : Op) (ho : o ≠ .detect) :
    let u := (s.body o p).complete
    let v := t.transaction o p
    SameLine p u v ∧ SameType u v ∧ SameResult u v := by
  have henv : SameEnv s (t.accept o p) := h.accept_right p o
  have htype : SameType (s.body o p) ((t.accept o p).body o p) := (hd.accept_right p o).body p henv o
  obtain ⟨hline, -, hresult⟩ := henv.body (p := p) o
  exact ⟨hline.complete_both, ⟨htype.devType, htype.ds⟩, ⟨(hresult ho).result, (hresult ho).ext⟩⟩

end

/-- The command READ's decode part is the body of: READ6 if TYPE is Six, else READ3 (45_read.md R77). -/
def State.decodeOp (s : State) : Op := if s.devType = DeviceType.six.code then .read6 else .read3

theorem State.decodeOp_ne_detect (s : State) : s.decodeOp ≠ .detect := by
  unfold State.decodeOp
  split <;> nofun

theorem SameType.decodeOp {s t : State} (h : SameType s t) : s.decodeOp = t.decodeOp := by
  rw [State.decodeOp, h.devType, State.decodeOp]

theorem State.readBody_eq_body (p : Port) (s : State) :
    s.readBody p = (s.detectBody p).body (s.detectBody p).decodeOp p := by
  by_cases hsix : (s.detectBody p).devType = DeviceType.six.code
  · rw [State.readBody_six p s hsix, State.decodeOp, if_pos hsix, State.body]
  · rw [State.readBody_other p s hsix, State.decodeOp, if_neg hsix, State.body]

theorem State.decodeOp_transaction (p : Port) (s : State) :
    (if s.devType = DeviceType.six.code then s.transaction .read6 p else s.transaction .read3 p) =
      s.transaction s.decodeOp p :=
  (apply_ite (State.transaction · p s) ..).symm

theorem State.read_transaction (p : Port) (s : State) :
    s.transaction .read p =
      (((s.accept .read p).detectBody p).body ((s.accept .read p).detectBody p).decodeOp p).complete :=
  congrArg State.complete (State.readBody_eq_body p (s.accept .read p))

/-- Settles O43: both make DETECT's accesses first and so choose the same decoder, whose body starts from the same bus record
and the same coming answers. -/
theorem readIsDetectThenDecoder : Obligations.ReadIsDetectThenDecoder := by
  intro p s _ d e u
  obtain ⟨henv, htype⟩ := s.readDetect_transaction p
  have hu : u = (((s.accept .read p).detectBody p).body d.decodeOp p).complete :=
    htype.decodeOp ▸ s.read_transaction p
  have he : e = d.transaction d.decodeOp p := d.decodeOp_transaction p
  obtain ⟨hline, htype', hresult⟩ := henv.body_transaction p htype d.decodeOp d.decodeOp_ne_detect
  rw [← hu, ← he] at hline htype' hresult
  have hother : ∀ q, q ≠ p → u.th q = e.th q := fun q hq => by
    simp only [he, u, d, State.transaction_otherLine p _ q hq]
  have hth : ∀ q, u.th q = e.th q := fun q =>
    if hq : q = p then hq ▸ hline.th else hother q hq
  exact ⟨hline.trace, htype'.devType, hresult.result, hresult.ext, hth, hline.answers, rfl, rfl⟩

end Sys2Proof.Machine

/-! ### FORMAT (46_format.md R79, R80)

A character of the string tells its bit, so the string tells the state. A call beside a busy block's step is what the host
does there, and `step_busy_withHost` says that this reaches only the host's list and the output of the string. -/

namespace Sys2Proof.Machine

/-! #### The string -/

theorem formatState_length (st : NormalizedState) : (formatState st).length = 12 := by simp [formatState]

theorem formatState_getElem? (st : NormalizedState) (i : Nat) (hi : i < 12) :
    (formatState st)[i]? = some (if st.getLsbD (11 - i) then '1' else '0') := by
  simp [formatState, hi]

/-- The two characters of a flag differ. -/
theorem flagChar_inj {b c : Bool} (h : (if b then '1' else '0') = (if c then '1' else '0')) : b = c := by
  revert b c; decide

/-- Bit j of a state is read off from character 11 - j of its string. -/
theorem formatState_inj {st st' : NormalizedState} (h : formatState st = formatState st') : st = st' := by
  refine BitVec.eq_of_getLsbD_eq fun j hj => flagChar_inj (Option.some.inj ?_)
  have hchar := congrArg (·[11 - j]?) h
  simpa only [formatState_getElem? _ (11 - j) (by omega), Nat.sub_sub_self (Nat.le_of_lt_succ hj)] using hchar

/-- Settles O26: the string is read character by character, and each character tells its bit. -/
theorem formatRendersTheFlagsInOrder : Obligations.FormatRendersTheFlagsInOrder :=
  ⟨fun st => ⟨rfl, formatState_length st, formatState_getElem? st⟩, fun _ _ => formatState_inj⟩

/-! #### The call -/

/-- Every move but a waiting `call` is used up, also by a busy block (log 1). -/
theorem State.takeMove_cons (s : State) (m : HostMove) (rest : List HostMove) (h : s.host = m :: rest)
    (hm : ∀ w, m ≠ .call w) : s.takeMove = { s with host := rest } := by
  cases m with
  | call w => exact absurd rfl (hm w)
  | wait | present w | format st | reset => simp only [State.takeMove, h, List.tail_cons]

theorem State.move_cons (s : State) (m : HostMove) (rest : List HostMove) (h : s.host = m :: rest) : s.move = m := by
  rw [State.move, h, List.headD_cons]

/-- A busy block's step beside a call of the formatter is the one beside a silent host, but for the string (R86). -/
theorem step_busy_format (s : State) (st : NormalizedState) (rest : List HostMove) (hb : s.busy = true)
    (h : s.host = .format st :: rest) :
    ∃ t, step { s with host := .wait :: rest } = .next t ∧ step s = .next { t with fmtOut := some (formatState st) } := by
  let silent : State := { s with host := .wait :: rest }
  have hmove : s.move = .format st := s.move_cons _ rest h
  obtain ⟨u, hu, hcall⟩ := step_busy_withHost s hb (by rw [hmove]; rfl)
  obtain ⟨u', hu', hsilent⟩ := step_busy_withHost silent hb rfl
  obtain rfl : u' = u := Host.Outcome.next.inj (hu'.symm.trans hu)
  refine ⟨_, hsilent, ?_⟩
  rw [hcall, s.hostTurn_format st hmove, s.takeMove_cons _ rest h nofun]
  rfl

/-- Settles O27: exec of FORMAT only answers the string, an idle block's step is that exec once the move is used up, and a busy
block goes on as beside a silent host. -/
theorem formatCallLeavesTheBlockAlone : Obligations.FormatCallLeavesTheBlockAlone := by
  refine ⟨exec_format, fun st s rest hb h => ?_, fun st s rest => step_busy_format s st rest⟩
  rw [step_format s st hb (s.move_cons _ rest h), s.takeMove_cons _ rest h nofun]
  rfl

end Sys2Proof.Machine

/-! ### One step (47_sequencer.md R82 to R88, 70_reset_and_hazards.md R108)

The host's side of a step is a move taken from its list. Beside a reset, an idle block runs what that move presents and a busy
block runs its micro-operation, whatever the move is; the statements on single steps are read off from these two cases. -/

namespace Sys2Proof.Machine

/-! #### Every step answers -/

theorem HostMove.isQuiet_of_ne_reset {m : HostMove} (h : m ≠ .reset) : m.isQuiet = true := by
  cases m with
  | reset => exact absurd rfl h
  | wait | present w | call w | format st => rfl

theorem step_next (s : State) : ∃ t, step s = .next t := by
  by_cases hreset : s.move = .reset
  · exact ⟨_, step_reset s hreset⟩
  have hq := HostMove.isQuiet_of_ne_reset hreset
  cases hb : s.busy with
  | true => exact ⟨_, step_busy s hb hq⟩
  | false =>
    obtain ⟨o, p, h⟩ | ⟨st, -, h⟩ | h := step_idle s hb hq <;> exact ⟨_, h⟩

theorem exec_next (i : Instr) (s : State) : ∃ t, exec i s = .next t := by
  cases i <;> exact ⟨_, rfl⟩

/-- Settles O7: a reset, a busy block's step and an idle block's step all answer, and so does every meaning. -/
theorem everyStepAnswersNext : Obligations.EveryStepAnswersNext := ⟨step_next, exec_next⟩

/-! #### The words of the host -/

theorem hostInstr_of_runs (w : OpWord) (h : (decodeWord w).HostCommand ∨ ∃ p, decodeWord w = .reserved p) :
    hostInstr w = some (decodeWord w) := by
  unfold hostInstr
  cases hw : decodeWord w with
  | setStrobe p l | sample p =>
    rw [hw] at h
    obtain h | ⟨q, h⟩ := h <;> cases h
  | detect p | read3 p | read6 p | read p | format st | reserved p => rfl

/-- The host command of a code of OP (30_encoding.md R51). -/
def Op.ofCode (c : BitVec 2) : Op :=
  if c = 0 then .detect else if c = 1 then .read3 else if c = 2 then .read6 else .read

theorem Op.code_ofCode (c : BitVec 2) : (Op.ofCode c).code = c := by
  revert c; decide

/-- A word whose bit 2 is clear is the host command of its low two bits, on the port of its bit 3 (30_encoding.md R51). -/
theorem decodeWord_command (w : OpWord) (h : w.getLsbD 2 = false) :
    decodeWord w = (Op.ofCode (w.extractLsb' 0 2)).command (portOfBit (w.getLsbD 3)) := by
  revert w; decide

/-- An idle block runs a word whose bit 2 is set not at all, or as the reserved word (R84). -/
theorem hostInstr_of_bit2 (w : OpWord) (h : w.getLsbD 2 = true) :
    hostInstr w = none ∨ hostInstr w = some (.reserved (portOfBit (w.getLsbD 3))) := by
  revert w; decide

theorem Op.command_hostCommand (o : Op) (p : Port) : (o.command p).HostCommand := by cases o <;> rfl

/-- An idle block uses up its host's move, whatever it is (log 1). -/
theorem State.takeMove_idle_cons (s : State) (m : HostMove) (rest : List HostMove) (hb : s.busy = false)
    (h : s.host = m :: rest) : s.takeMove = { s with host := rest } := by
  rw [s.takeMove_idle hb, h, List.tail_cons]

/-- An idle block runs a presented or called word that it runs at all by its meaning (R82, R84). -/
theorem step_idle_word (s : State) (w : OpWord) (rest : List HostMove) (hb : s.busy = false)
    (hh : s.host = .present w :: rest ∨ s.host = .call w :: rest)
    (hw : (decodeWord w).HostCommand ∨ ∃ p, decodeWord w = .reserved p) :
    step s = exec (decodeWord w) { s with host := rest } := by
  obtain ⟨m, hm, hh⟩ : ∃ m : HostMove, m.instr = hostInstr w ∧ s.host = m :: rest :=
    hh.elim (⟨.present w, rfl, ·⟩) (⟨.call w, rfl, ·⟩)
  have hinstr : s.move.instr = some (decodeWord w) := by rw [s.move_cons m rest hh, hm, hostInstr_of_runs w hw]
  rw [step_idle_some s _ hb hinstr, s.takeMove_idle_cons m rest hb hh]

/-- Settles O5: an idle block's step is exec of what the move presents or calls; a busy block's step is exec of the
micro-operation of its phase, then the sequencer's work. -/
theorem stepRunsTheFetchedOperation : Obligations.StepRunsTheFetchedOperation := by
  refine ⟨fun s w rest i hb hh hi hw => ?_, fun s st rest hb hh => ?_, fun s t hb hq hp ht => ?_, fun s t hb hq hp ht => ?_,
    fun s st hm => ?_, State.hostTurn_other⟩
  · subst hi
    exact step_idle_word s w rest hb hh hw
  · rw [step_format s st hb (s.move_cons _ rest hh), s.takeMove_idle_cons _ rest hb hh, exec_format]
  · cases ht
    exact step_busy_wr s hb hq hp
  · cases ht
    exact step_busy_rd s hb hq hp
  · rw [s.hostTurn_format st hm, exec_format]

/-! #### Placing an operation (log 13) -/

/-- Placing puts one move in front of the host's, and the step uses it up. -/
theorem State.place_takeMove (s : State) (i : Instr) : (s.place i).takeMove = { s.place i with host := s.host } := by
  cases i <;> rfl

theorem step_place_setStrobe (s : State) (p : Port) (l : Level) :
    step (s.place (.setStrobe p l)) = .next ((s.place (.setStrobe p l)).takeMove.strobe p l).afterStrobe := by
  cases l <;> exact step_busy_wr _ rfl rfl rfl

theorem step_place_sample (s : State) (p : Port) :
    step (s.place (.sample p)) = .next ((s.place (.sample p)).takeMove.sampleRead p).afterRead :=
  step_busy_rd (s.place (.sample p)) rfl rfl rfl

/-- A placed word is presented to an idle block, which runs it by its meaning. -/
theorem step_place_word (s : State) (i : Instr) (w : OpWord) (hw : encodeWord i = some w)
    (hi : i.HostCommand ∨ ∃ p, i = .reserved p) (hb : (s.place i).busy = false)
    (hh : (s.place i).host = .present w :: s.host) : step (s.place i) = exec i (s.place i).takeMove := by
  have hdec := decodeWord_of_encodeWord i w hw
  rw [s.place_takeMove i, step_idle_word (s.place i) w s.host hb (.inl hh) (hdec.symm ▸ hi), hdec]

/-- Settles O6: the placed move is used up; what it presents or calls is run by an idle block, and the sequencer of a busy
one stands at the placed micro-operation. -/
theorem placedOperationRunsNext : Obligations.PlacedOperationRunsNext := by
  intro s i
  refine ⟨s.place_takeMove i, ?_⟩
  cases i with
  | setStrobe p l =>
    intro t ht
    cases ht
    exact step_place_setStrobe s p l
  | sample p =>
    intro t ht
    cases ht
    exact step_place_sample s p
  | format st => exact step_format (s.place (.format st)) st rfl rfl
  | reserved p => exact step_place_word s _ _ rfl (.inr ⟨p, rfl⟩) rfl rfl
  | detect p | read3 p | read6 p | read p => exact step_place_word s _ _ rfl (.inl rfl) rfl rfl

/-! #### What the host may present -/

/-- Settles O8: exec of a command is acceptance, and an idle block runs a presented command by exec. -/
theorem idleBlockAcceptsCommands : Obligations.IdleBlockAcceptsCommands := by
  refine ⟨fun p s hb => ?_, fun s w rest hb hw hh => ?_⟩
  · simp only [exec_detect, exec_read3, exec_read6, exec_read, State.accept_idle _ p s hb]
    exact ⟨rfl, rfl, rfl, rfl⟩
  · have hdec := decodeWord_command w hw
    have hstep := step_idle_word s w rest hb (.inl hh) (.inl (hdec ▸ Op.command_hostCommand _ _))
    rw [hdec, exec_command, State.accept_idle _ _ { s with host := rest } hb] at hstep
    exact ⟨_, hstep, rfl, rfl, rfl, Op.code_ofCode _, rfl, rfl, rfl, rfl⟩

/-- A busy block's step beside a presented word is the one beside a host that waits (R83). -/
theorem step_busy_present (s : State) (w : OpWord) (rest : List HostMove) (hb : s.busy = true) :
    step { s with host := .present w :: rest } = step { s with host := .wait :: rest } := by
  rw [step_busy { s with host := .present w :: rest } hb rfl, step_busy { s with host := .wait :: rest } hb rfl]
  rfl

/-- Settles O9: a busy block uses up a presented word as it does a waiting, and acceptance leaves it alone. -/
theorem busyBlockAcceptsNothing : Obligations.BusyBlockAcceptsNothing := by
  refine ⟨step_busy_present, fun p s hb => ?_⟩
  simp only [exec_detect, exec_read3, exec_read6, exec_read, State.accept_busy _ p s hb, and_self]

/-- An idle block uses up a word whose bit 2 is set and does nothing more (R84). -/
theorem step_idle_otherWord (s : State) (w : OpWord) (rest : List HostMove) (hw : w.getLsbD 2 = true) (hb : s.busy = false)
    (hh : s.host = .present w :: rest) : step s = .next { s with host := rest } := by
  have hmove := s.move_cons _ rest hh
  have hinstr : s.move.instr = hostInstr w := by rw [hmove]; rfl
  rw [← s.takeMove_idle_cons _ rest hb hh]
  obtain h | h := hostInstr_of_bit2 w hw
  · exact step_idle_none s hb (by rw [hmove]; rfl) (hinstr.trans h)
  · rw [step_idle_some s _ hb (hinstr.trans h), exec_reserved]

/-- Settles O10: such a word names no operation an idle block runs, or the reserved one. -/
theorem otherWordsChangeNothing : Obligations.OtherWordsChangeNothing :=
  ⟨fun s w rest hw hb => step_idle_otherWord { s with host := .present w :: rest } w rest hw hb rfl,
    fun s w rest _ hb => step_busy_present s w rest hb, exec_reserved⟩

/-- Settles O11: a host that presents nothing leaves an idle block no operation to run. -/
theorem idleBlockIsStill : Obligations.IdleBlockIsStill := by
  refine ⟨fun s hfin => ?_, fun s rest hb hh => ?_⟩
  · obtain ⟨hb, hh⟩ := hfin
    have hmove : s.move = .wait := by rw [State.move, hh, List.headD_nil]
    rw [step_idle_none s hb (by rw [hmove]; rfl) (by rw [hmove]; rfl), s.takeMove_nil hh]
  · have hmove := s.move_cons _ rest hh
    rw [step_idle_none s hb (by rw [hmove]; rfl) (by rw [hmove]; rfl), s.takeMove_idle_cons _ rest hb hh]

/-- Settles O32: the step is the reset event, which keeps the surroundings and the lines' levels. -/
theorem resetAbandonsTheTransaction : Obligations.ResetAbandonsTheTransaction := by
  intro s rest hh
  refine ⟨_, step_reset s (s.move_cons _ rest hh), ?_⟩
  rw [s.takeMove_cons _ rest hh nofun]
  refine ⟨rfl, rfl, rfl, rfl, rfl, rfl, rfl, rfl, fun r => rfl, fun q => ?_⟩
  cases q <;> exact ⟨rfl, rfl, rfl⟩

/-! #### The bus access of a busy block's step -/

@[simp] theorem State.hostTurn_nextByte (p : Port) (s : State) : s.hostTurn.nextByte p = s.nextByte p :=
  State.nextByte_congr p s.hostTurn s s.hostTurn_answers s.hostTurn_trace

@[simp] theorem State.endOfSchedule_trace (s : State) : s.endOfSchedule.trace = s.trace := by
  unfold State.endOfSchedule
  split
  · split <;> rfl
  · rfl
  · rfl

/-- The sequencer's work after a read makes no bus access. -/
@[simp] theorem State.afterRead_trace (s : State) : s.afterRead.trace = s.trace := by
  unfold State.afterRead State.nextEntry
  split
  · split <;> simp
  · rfl

theorem step_busy_wr_trace (s t : State) (hb : s.busy = true) (hq : s.move.isQuiet = true) (hp : s.ph = .wr)
    (h : step s = .next t) : t.trace = s.trace ++ [.write (Config.code s.port (entry s.prog s.stepIx).1)] := by
  cases h.symm.trans (step_busy_wr s hb hq hp)
  simp

theorem step_busy_rd_trace (s t : State) (hb : s.busy = true) (hq : s.move.isQuiet = true) (hp : s.ph = .rd)
    (h : step s = .next t) : t.trace = s.trace ++ [.read s.port (s.nextByte s.port)] := by
  cases h.symm.trans (step_busy_rd s hb hq hp)
  simp

/-- A busy block's step is one bus access long (R86). -/
theorem step_busy_trace_length (s t : State) (hb : s.busy = true) (hq : s.move.isQuiet = true) (h : step s = .next t) :
    t.trace.length = s.trace.length + 1 := by
  cases hp : s.ph with
  | wr => simp [step_busy_wr_trace s t hb hq hp h]
  | rd => simp [step_busy_rd_trace s t hb hq hp h]

theorem step_trace_kept (s t : State) (h : step s = .next t) (hs : s.busy = false ∨ s.move.isQuiet = false) :
    t.trace = s.trace := by
  obtain ⟨-, rfl⟩ | ⟨hq, hb, -⟩ | ⟨hq, hb, -⟩ | ⟨-, -, ⟨o, p, rfl⟩ | ⟨st, -, rfl⟩ | rfl⟩ := step_cases s t h
  · simp
  · simp [hq, hb] at hs
  · simp [hq, hb] at hs
  · simp
  · simp
  · simp

/-- Settles O12: a busy block's phase says which access its step makes, and no other case of a step makes one. -/
theorem oneBusAccessAStep : Obligations.OneBusAccessAStep :=
  fun s t h => ⟨fun hb hq hp => step_busy_wr_trace s t hb hq hp h, fun hb hq hp => step_busy_rd_trace s t hb hq hp h,
    step_trace_kept s t h⟩

/-! #### The WR step -/

/-- A strobe write beside what the host does is the write alone, but for the host's list and the formatter's output. -/
theorem State.hostTurn_strobe (p : Port) (l : Level) (s : State) :
    s.hostTurn.strobe p l = (s.strobe p l).withHost s.takeMove.host s.hostTurn.fmtOut :=
  (congrArg (State.strobe p l) s.hostTurn_eq).trans (State.strobe_withHost _ _ p l s)

/-- The frame of the WR step: the strobe outputs and the trace follow the write, and the SAMPLE starts (R86). -/
theorem State.writeStep_eq (p : Port) (l : Level) (s : State) :
    let t := (s.hostTurn.strobe p l).afterStrobe
    t = { s with
      trace := t.trace, thA := t.thA, thB := t.thB, thAHeld := t.thAHeld, thBHeld := t.thBHeld
      run := 0, iter := 0, ph := .rd, host := s.takeMove.host, fmtOut := s.hostTurn.fmtOut } := by
  rw [State.hostTurn_strobe]
  cases p <;> rfl

/-- Settles O28: the step is the strobe of the current entry on its port, and then the start of its SAMPLE. -/
theorem writeStepStrobes : Obligations.WriteStepStrobes := by
  intro s hb hp hq
  have hstep := step_busy_wr s hb hq hp
  refine ⟨_, hstep, step_busy_wr_trace s _ hb hq hp hstep, by simp, by simp, fun q hne => by simp [hne], ?_⟩
  exact State.writeStep_eq s.port _ s

/-! #### The RD step -/

/-- A read beside what the host does is the read alone, but for the host's list and the formatter's output. -/
theorem State.hostTurn_sampleRead (p : Port) (s : State) :
    s.hostTurn.sampleRead p = (s.sampleRead p).withHost s.takeMove.host s.hostTurn.fmtOut :=
  congrArg (State.sampleRead p) s.hostTurn_eq

/-- DS is the destination of a last entry only (30_encoding.md R52). -/
theorem entry_dest_ne_ds (g : Prog) (k : BitVec 3) (h : k < lastIx g) : (entry g k).2 ≠ .ds := by
  cases g <;> revert k <;> decide

/-- A finished SAMPLE within a schedule is handed over, and the next entry follows (R86). -/
theorem State.afterRead_within (s : State) (hd : s.sampleDone = true) (hk : s.stepIx < lastIx s.prog) :
    s.afterRead = { s.deliver (entry s.prog s.stepIx).2 with stepIx := s.stepIx + 1, ph := .wr } := by
  rw [s.afterRead_done hd, State.nextEntry_within _ (by simpa using hk), State.deliver_stepIx]

/-- A finished SAMPLE of a schedule's last entry is handed over, and the schedule ends (R86). -/
theorem State.afterRead_last (s : State) (hd : s.sampleDone = true) (hk : s.stepIx = lastIx s.prog) :
    s.afterRead = (s.deliver (entry s.prog s.stepIx).2).endOfSchedule := by
  have hlast : ¬ s.stepIx < lastIx s.prog := hk ▸ BitVec.lt_irrefl _
  rw [s.afterRead_done hd, State.nextEntry_last _ (by simpa using hlast)]

/-- Settles O29: the read leaves r; unless it finishes the SAMPLE nothing follows, else the entry's destination is filled. -/
theorem readStepGoesOn : Obligations.ReadStepGoesOn := by
  intro s hb hp hq r
  have hstep : step s = .next r.afterRead :=
    (step_busy_rd s hb hq hp).trans (congrArg (Host.Outcome.next ∘ State.afterRead) (s.hostTurn_sampleRead s.port))
  refine ⟨fun hrun hiter => ?_, fun hdone hk => ⟨fun hd => ?_, fun i hd => ?_, entry_dest_ne_ds s.prog s.stepIx hk⟩⟩
  · have hgoing : r.sampleDone = false :=
      Bool.eq_false_iff.mpr fun h => (r.sampleDone_iff.mp h).elim hrun hiter
    rw [hstep, r.afterRead_going hgoing]
  · have hdest : r.deliver (entry r.prog r.stepIx).2 = r := congrArg (r.deliver ·) hd
    rw [hstep, r.afterRead_within (r.sampleDone_iff.mpr hdone) hk, hdest]
  · have hdest : r.deliver (entry r.prog r.stepIx).2 = r.deliver (.smp i) := congrArg (r.deliver ·) hd
    rw [hstep, r.afterRead_within (r.sampleDone_iff.mpr hdone) hk, hdest]
    rfl

/-- The schedule that follows the classification, by the type itself (45_read.md R77). -/
theorem State.decodeProg_writeType_eq (s : State) :
    s.writeType.decodeProg = if classify (lowNibble s.ds) = .six then .r6 else .r3 := by
  obtain ⟨hsix, h⟩ | ⟨hne, h⟩ := s.decodeProg_writeType
  · rw [h, if_pos hsix]
  · rw [h, if_neg hne]

/-- What READ3 makes of its samples when the low-phase one arrives (43_read3.md R68). -/
theorem State.writeThree_deliver_low (s : State) :
    (s.deliver (.smp 0)).writeThree = (s.deliver (.smp 0)).writeResult (dec3 s.smp[1] (inv s.last)) 7 := by
  have hlow : (s.deliver (.smp 0)).smp[0] = inv s.last := Vector.getElem_set_self _
  have hhigh : (s.deliver (.smp 0)).smp[1] = s.smp[1] := Vector.getElem_set_ne (by decide) _ (by decide)
  rw [State.writeThree, hlow, hhigh]
  rfl

/-- Settles O30: the read leaves r and finishes the SAMPLE of the last entry, so its destination is filled and the schedule
ends as its own rule says. -/
theorem lastReadStepEndsTheSchedule : Obligations.LastReadStepEndsTheSchedule := by
  intro s hb hp hq r c hdone
  have hend : ∀ g d, s.prog = g → s.stepIx = lastIx g → (entry g (lastIx g)).2 = d →
      step s = .next (r.deliver d).endOfSchedule := by
    rintro g d rfl hk rfl
    rw [step_busy_rd s hb hq hp, s.hostTurn_sampleRead, ← hk]
    exact congrArg _ (r.afterRead_last (r.sampleDone_iff.mpr hdone) hk)
  refine ⟨fun hg hk ho => ?_, fun hg hk ho => ?_, fun hg hk => ?_, fun hg hk => ?_⟩
  · have hop : (r.deliver .ds).op ≠ .read := fun h => by cases ho.symm.trans h
    rw [hend .det .ds hg hk rfl, State.endOfSchedule_det (r.deliver .ds) hg hop]
    rfl
  · rw [hend .det .ds hg hk rfl, State.endOfSchedule_read (r.deliver .ds) hg ho, State.decodeProg_writeType_eq]
    rfl
  · rw [hend .r3 (.smp 0) hg hk rfl, State.endOfSchedule_r3 (r.deliver (.smp 0)) hg, r.writeThree_deliver_low]
    rfl
  · rw [hend .r6 .discard hg hk rfl, State.endOfSchedule_r6 (r.deliver .discard) hg]
    rfl

end Sys2Proof.Machine

/-! ### Whole commands (47_sequencer.md R89, R90, 70_reset_and_hazards.md R123)

A command's steps beside a silent host walk its schedules, so their number is bounded by the entries they walk and their end
is the procedure's. Another host reaches only its own list and the formatter's output, so its command takes the same steps. -/

namespace Sys2Proof.Machine

/-! #### Beside a silent host -/

/-- The bounds of R90 and R123 on the bus accesses of a command that ends with the given TYPE. -/
def Op.Bounds (o : Op) (ty : BitVec 2) (n : Nat) : Prop :=
  match o with
  | .detect => 20 ≤ n ∧ n ≤ 325
  | .read3 => 12 ≤ n ∧ n ≤ 195
  | .read6 => 32 ≤ n ∧ n ≤ 520
  | .read => (ty = DeviceType.six.code → 52 ≤ n ∧ n ≤ 845) ∧ (ty ≠ DeviceType.six.code → 32 ≤ n ∧ n ≤ 520)

/-- The end of the last schedule a body walks is that body, completed: of DETECT, where the accepted command is not READ, and
of the two decoders (R87). -/
theorem State.endOfSchedule_body (o : Op) (p : Port) (s : State) (ho : o ≠ .read) (hop : o = .detect → s.op ≠ .read) :
    ((s.walk p (schedule o.firstProg)).atPos o.firstProg (lastIx o.firstProg) .rd).endOfSchedule =
      (s.body o p).complete.atPos o.firstProg (lastIx o.firstProg) .rd := by
  cases o with
  | detect =>
    simp only [State.body, State.detectBody_walk, Op.firstProg]
    have hwalk : (s.walk p (schedule .det)).op ≠ .read := by simpa using hop rfl
    generalize s.walk p (schedule .det) = w at hwalk
    exact State.endOfSchedule_det _ rfl hwalk
  | read3 =>
    simp only [State.body, State.read3Body_walk, Op.firstProg]
    generalize s.walk p (schedule .r3) = w
    exact State.endOfSchedule_r3 _ rfl
  | read6 =>
    simp only [State.body, State.read6Body_walk, Op.firstProg]
    generalize s.walk p (schedule .r6) = w
    exact State.endOfSchedule_r6 _ rfl
  | read => exact absurd rfl ho

/-- The decoder that TYPE chooses walks the schedule that TYPE chooses (45_read.md R77). -/
theorem State.decodeOp_firstProg (s : State) : s.decodeOp.firstProg = s.decodeProg := by
  unfold State.decodeOp State.decodeProg
  split <;> rfl

theorem State.decodeOp_ne_read (s : State) : s.decodeOp ≠ .read := by
  unfold State.decodeOp
  split <;> nofun

/-- READ's decode part leaves TYPE alone. -/
theorem State.body_decodeOp_devType (p : Port) (s : State) : (s.body s.decodeOp p).devType = s.devType := by
  unfold State.decodeOp
  split
  · rw [State.body, State.read6Body_walk, State.writeSix_devType, State.walk_devType]
  · rw [State.body, State.read3Body_walk, State.writeThree_devType, State.walk_devType]

/-- READ's steps make DETECT's body and then walk the schedule that TYPE chose (45_read.md R77). -/
theorem readBody_stretch (p : Port) (s : State) (hb : s.busy = false) (hh : s.host = []) :
    let d := (s.accept .read p).detectBody p
    let g := d.decodeProg
    ∃ n, 4 * (5 + (schedule g).length) ≤ n ∧ n ≤ 65 * (5 + (schedule g).length) ∧
      Stretch n (s.accept .read p) ((d.walk p (schedule g)).atPos g (lastIx g) .rd).endOfSchedule := by
  have hnods := ((s.accept .read p).walk p (schedule .det)).writeType.ds_notMem_decodeProg
  obtain ⟨n, hlow, hhigh, hst⟩ := read_stretch p s hb hh
  rw [List.length_append] at hlow hhigh
  rw [State.walk_append, ← State.walk_writeType p _ hnods] at hst
  exact ⟨n, hlow, hhigh, hst⟩

/-- READ's steps end where its procedure ends; the schedule that TYPE chose says how many they are. -/
theorem read_command_stretch (p : Port) (s : State) (hb : s.busy = false) (hh : s.host = []) :
    ∃ n g, Stretch n (s.accept .read p) ((s.transaction .read p).atPos g (lastIx g) .rd) ∧
      Op.read.Bounds (s.transaction .read p).devType n := by
  obtain ⟨n, hlow, hhigh, hst⟩ := readBody_stretch p s hb hh
  rw [s.read_transaction p]
  generalize (s.accept .read p).detectBody p = d at *
  rw [← d.decodeOp_firstProg,
    d.endOfSchedule_body d.decodeOp p d.decodeOp_ne_read fun h => absurd h d.decodeOp_ne_detect] at hst
  refine ⟨n, d.decodeOp.firstProg, hst, ?_⟩
  rw [State.complete_devType, d.body_decodeOp_devType]
  constructor
  · intro hsix
    rw [State.decodeProg, if_pos hsix] at hlow hhigh
    exact ⟨hlow, hhigh⟩
  · intro hne
    rw [State.decodeProg, if_neg hne] at hlow hhigh
    exact ⟨hlow, hhigh⟩

/-- A command's steps beside a silent host end where its procedure ends, after a bounded number of bus accesses. -/
theorem command_stretch (o : Op) (p : Port) (s : State) (hb : s.busy = false) (hh : s.host = []) :
    ∃ n g, Stretch n (s.accept o p) ((s.transaction o p).atPos g (lastIx g) .rd) ∧
      o.Bounds (s.transaction o p).devType n := by
  by_cases ho : o = .read
  · subst ho
    exact read_command_stretch p s hb hh
  have hop : (s.accept o p).op = o := by rw [State.accept_idle o p s hb]
  obtain ⟨n, hlow, hhigh, hst⟩ := firstSchedule_stretch o p s hb hh
  rw [State.endOfSchedule_body o p _ ho fun _ => hop.symm ▸ ho] at hst
  refine ⟨n, o.firstProg, hst, ?_⟩
  cases o with
  | detect | read3 | read6 => exact ⟨hlow, hhigh⟩
  | read => exact absurd rfl ho

/-- Settles O37: the steps end in the procedure's own state, but for the sequencer's position. -/
theorem stepsAgreeWithProcedures : Obligations.StepsAgreeWithProcedures := by
  intro o p s hb hh
  obtain ⟨n, g, hst, -⟩ := command_stretch o p s hb hh
  exact ⟨_, n, _, exec_command o p s, hst.1, rfl, rfl⟩

/-! #### Beside any host that does not reset -/

/-- The same block beside a host that does nothing and has been told nothing. -/
def State.silent (s : State) : State := s.withHost [] none

@[simp] theorem State.silent_port (s : State) : s.silent.port = s.port := rfl
@[simp] theorem State.silent_prog (s : State) : s.silent.prog = s.prog := rfl
@[simp] theorem State.silent_stepIx (s : State) : s.silent.stepIx = s.stepIx := rfl

theorem State.withHost_withHost (hs hs' : List HostMove) (out out' : Option (List Char)) (s : State) :
    (s.withHost hs out).withHost hs' out' = s.withHost hs' out' := rfl

theorem State.afterStrobe_withHost (hs : List HostMove) (out : Option (List Char)) (s : State) :
    (s.withHost hs out).afterStrobe = s.afterStrobe.withHost hs out := rfl

/-- A busy block's step is the one beside a silent host, but for the host's list and the formatter's output (R83, R86). -/
theorem step_busy_silent (s : State) (hb : s.busy = true) (hq : s.move.isQuiet = true) :
    ∃ t, step s.silent = .next t ∧ step s = .next (t.withHost s.takeMove.host s.hostTurn.fmtOut) := by
  have hturn : s.silent.hostTurn = s.silent := State.hostTurn_nil _ rfl
  cases hp : s.ph with
  | wr =>
    refine ⟨_, step_busy_wr s.silent hb rfl hp, ?_⟩
    rw [step_busy_wr s hb hq hp, State.hostTurn_strobe, hturn, s.silent_port, s.silent_prog, s.silent_stepIx]
    simp only [State.silent, State.strobe_withHost, State.afterStrobe_withHost, State.withHost_withHost]
  | rd =>
    refine ⟨_, step_busy_rd s.silent hb rfl hp, ?_⟩
    rw [step_busy_rd s hb hq hp, State.hostTurn_sampleRead, hturn, s.silent_port]
    simp only [State.silent, State.sampleRead_withHost, State.afterRead_withHost, State.withHost_withHost]

/-- A stretch of at least one step starts at a busy block, whose step begins the rest. -/
theorem Stretch.uncons {n : Nat} {s u : State} (h : Stretch (n + 1) s u) :
    s.busy = true ∧ s.done = false ∧ ∃ t, step s = .next t ∧ (s.move.isQuiet = true → Stretch n t u) := by
  obtain ⟨hrun, hlen, hmid⟩ := h
  obtain ⟨v, hv, hb, hd, -⟩ := hmid 0 (Nat.succ_pos n)
  cases hv
  obtain ⟨t, ht⟩ := step_next s
  refine ⟨hb, hd, t, ht, fun hq => ?_⟩
  have htrace := step_busy_trace_length s t hb hq ht
  refine ⟨run_succ n s t ht ▸ hrun, by omega, fun m hm => ?_⟩
  obtain ⟨v, hv, hvb, hvd, hvl⟩ := hmid (m + 1) (by omega)
  exact ⟨v, run_succ m s t ht ▸ hv, hvb, hvd, by omega⟩

theorem State.move_isQuiet (s : State) (h : ∀ m ∈ s.host, m.isQuiet = true) : s.move.isQuiet = true := by
  cases hh : s.host with
  | nil => rw [State.move, hh]; rfl
  | cons m rest =>
    rw [s.move_cons m rest hh]
    exact h m (hh ▸ List.mem_cons_self)

/-- A block beside a host that does not reset takes the steps it takes beside another such host. -/
theorem Stretch.of_silent_eq {n : Nat} {s v u : State} (h : Stretch n v u) (hs : ∀ m ∈ s.host, m.isQuiet = true)
    (hv : ∀ m ∈ v.host, m.isQuiet = true) (heq : s.silent = v.silent) : ∃ w, Stretch n s w ∧ w.silent = u.silent := by
  induction n generalizing s v with
  | zero =>
    obtain ⟨hrun, -, -⟩ := h
    cases hrun
    exact ⟨s, ⟨rfl, rfl, fun m hm => absurd hm (Nat.not_lt_zero m)⟩, heq⟩
  | succ n ih =>
    obtain ⟨hvb, hvd, t, ht, hrest⟩ := h.uncons
    have hb : s.busy = true := (congrArg State.busy heq).trans hvb
    have hd : s.done = false := (congrArg State.done heq).trans hvd
    obtain ⟨x, hx, hvx⟩ := step_busy_silent v hvb (v.move_isQuiet hv)
    obtain ⟨x', hx', hsx⟩ := step_busy_silent s hb (s.move_isQuiet hs)
    obtain rfl : x' = x := Host.Outcome.next.inj (hx'.symm.trans (heq ▸ hx))
    obtain rfl : t = _ := Host.Outcome.next.inj (ht.symm.trans hvx)
    obtain ⟨w, hw, hwu⟩ := ih (s := x'.withHost s.takeMove.host s.hostTurn.fmtOut) (hrest (v.move_isQuiet hv))
      (fun m hm => hs m (s.takeMove_host_subset m hm)) (fun m hm => hv m (v.takeMove_host_subset m hm)) rfl
    have hone : Stretch 1 s _ :=
      Stretch.one hsx hb hd (step_busy_trace_length s _ hb (s.move_isQuiet hs) hsx)
    exact ⟨w, Nat.add_comm 1 n ▸ hone.trans hw, hwu⟩

/-- Acceptance does not look at the host. -/
theorem State.accept_silent (o : Op) (p : Port) (s : State) (hb : s.busy = false) :
    (s.accept o p).silent = (s.silent.accept o p).silent := by
  rw [State.accept_idle o p s hb, State.accept_idle o p s.silent hb]
  rfl

/-- Settles O36: the steps are those beside a silent host, which end where the procedure ends. -/
theorem everyCommandCompletes : Obligations.EveryCommandCompletes := by
  intro o p s hb hq
  obtain ⟨n, g, hst, hbounds⟩ := command_stretch o p s.silent hb rfl
  have hquiet : ∀ m ∈ (s.accept o p).host, m.isQuiet = true := by rw [State.accept_idle o p s hb]; exact hq
  have hnone : ∀ m ∈ (s.silent.accept o p).host, m.isQuiet = true := by
    rw [State.accept_idle o p s.silent hb]; exact nofun
  obtain ⟨u, ⟨hrun, hlen, hmid⟩, hsame⟩ := hst.of_silent_eq hquiet hnone (s.accept_silent o p hb)
  rw [State.accept_trace] at hlen hmid
  have htype : u.devType = (s.silent.transaction o p).devType := (congrArg State.devType hsame :)
  refine ⟨_, n, u, exec_command o p s, hrun, congrArg State.busy hsame, congrArg State.done hsame, fun m v hm hv => ?_,
    hlen, ?_⟩
  · obtain ⟨v', hv', hstate⟩ := hmid m hm
    cases hv.symm.trans hv'
    exact hstate
  · rw [htype]
    cases o <;> exact hbounds

end Sys2Proof.Machine
